-- ==== Sys2Proof/Word.lean ====
section
/-! DEFINITION. The word types of the block's state and ports (00_scope.md R7, 10_state.md, 30_encoding.md R63). -/

namespace Sys2Proof

/-- `u8`: color channels, durations, point counts, slot indices, `USED`, `ACTIVE`, `FAULT`. -/
abbrev U8 := BitVec 8

/-- `u16`: the wave width `W` and the LED index `k`. -/
abbrev U16 := BitVec 16

/-- A command word, `CMD[63:0]` (30_encoding.md R64). -/
abbrev CmdWord := BitVec 64

/-- A response word, `RSP[31:0]` (30_encoding.md R66). -/
abbrev RspWord := BitVec 32

/-- The `DATA` field of a response word, 24 bits (30_encoding.md R66). -/
abbrev RspData := BitVec 24

end Sys2Proof
end

