-- ==== Sys2Proof/Config.lean ====
section
/-! DEFINITION. The implementation parameters of one instance of the block (00_scope.md R5). LATENCY and
RESET_CYCLES are omitted, as 93_implementation_defined.md section 1 says an untimed model does (log entry 10). -/

namespace Sys2Proof

/-- The parameter `ARITH`: the arithmetic of the "floating-point" values (00_scope.md R5, R11, R12). -/
inductive Arith
  /-- exact rationals, the spec's own choice for the block (R11) -/
  | exact
  /-- IEEE 754 binary32, each operation rounded once to nearest, ties to even (R12) -/
  | binary32
deriving DecidableEq, Repr

/-- The parameters that one instance of the block fixes (00_scope.md R5). -/
structure Params where
  /-- `NUM_LEDS`, the number of LEDs in the LED memory -/
  numLeds : Nat
  /-- `MAX_POINTS`, the largest number of control points of one gradient -/
  maxPoints : Nat
  /-- `MAX_GRADIENTS`, the number of gradient slots -/
  maxGradients : Nat
  /-- `ARITH` -/
  arith : Arith
deriving DecidableEq, Repr

/-- The legal values of the parameters (00_scope.md R5). -/
abbrev Params.Legal (p : Params) : Prop :=
  (1 ≤ p.numLeds ∧ p.numLeds ≤ 65535) ∧ (1 ≤ p.maxPoints ∧ p.maxPoints ≤ 255) ∧
    (1 ≤ p.maxGradients ∧ p.maxGradients ≤ 255)

/-- The instance that `Machine.State.reset` describes. DESIGN CHOICE (log entry 1): R5 leaves the counts
open, and R11 makes `EXACT` the block's own arithmetic. Unsafe: a claim about `State.reset` alone speaks of
this instance only; `Machine.State.resetWith` is the reset state of any instance. -/
def Params.default : Params :=
  { numLeds := 8, maxPoints := 4, maxGradients := 2, arith := .exact }

end Sys2Proof
end

