-- ==== Sys2Proof/Syntax.lean ====
section
/-! DEFINITION. The commands of the block: one constructor per row of spec/opcode_table.json
(30_encoding.md R68), with the operands and operand widths of R70 to R75 in assembler order (R80). -/

namespace Sys2Proof

/-- The block's commands. -/
inductive Instr
  /-- NOP, 43_readout.md R146 -/
  | nop
  /-- ADD_GRADIENT N, W, 40_gradient_load.md R86 -/
  | addGradient (n : U8) (w : U16)
  /-- APPEND_CP s, r, g, b, dur, 40_gradient_load.md R88 -/
  | appendCp (sl r g b dur : U8)
  /-- START_GRADIENT s, 41_activation.md R110 -/
  | startGradient (sl : U8)
  /-- STEP, 42_step.md R120 -/
  | step
  /-- READ_LED k, ch, 43_readout.md R140; `ch` is the u2 field `CH` (30_encoding.md R70, R74) -/
  | readLed (k : U16) (ch : BitVec 2)
  /-- READ_PHASE k, 43_readout.md R142 -/
  | readPhase (k : U16)
  /-- READ_STATUS, 43_readout.md R144 -/
  | readStatus
deriving DecidableEq, Repr

/-- The eight opcodes of 30_encoding.md R68. -/
inductive Op
  | nop | addGradient | appendCp | startGradient | step | readLed | readPhase | readStatus
deriving DecidableEq, Repr

/-- The six command formats of 30_encoding.md R65. -/
inductive Format
  | Z | G | P | S | L | Q
deriving DecidableEq, Repr

/-- The opcode of a command. -/
def Instr.op : Instr → Op
  | .nop => .nop
  | .addGradient _ _ => .addGradient
  | .appendCp _ _ _ _ _ => .appendCp
  | .startGradient _ => .startGradient
  | .step => .step
  | .readLed _ _ => .readLed
  | .readPhase _ => .readPhase
  | .readStatus => .readStatus

end Sys2Proof
end

