-- ==== Sys2Proof/WellFormed.lean ====
section
/-! DEFINITION. Which terms of `Instr` are commands. The one check is READ_LED's channel selector: `CH = 3`
is an illegal encoding (30_encoding.md R74, R77). Every other operand takes every value of its field: the
range checks on `N`, `W`, `dur`, `s` and `k` are semantic, not encoding, checks (R71, R72). -/

namespace Sys2Proof

/-- `CH` selects a channel: red 0, green 1 or blue 2 (30_encoding.md R74). -/
def channelSelects (ch : BitVec 2) : Bool := ch != 3#2

/-- The command exists: some command word decodes to it. -/
def Instr.wellFormed : Instr → Bool
  | .nop => true
  | .addGradient _ _ => true
  | .appendCp _ _ _ _ _ => true
  | .startGradient _ => true
  | .step => true
  | .readLed _ ch => channelSelects ch
  | .readPhase _ => true
  | .readStatus => true

end Sys2Proof
end

