-- ==== Sys2Proof/Decode.lean ====
section
/-! DEFINITION. The decoder (30_encoding.md R64 to R79), total on every 64-bit word and on every byte string,
then the encoder written from the same tables, and the byte order of a narrow transport (20_memory.md R51). -/

namespace Sys2Proof

/-! ### Fields of the command word (30_encoding.md R64) -/

/-- `OP = CMD[63:56]`. -/
def opField (w : CmdWord) : U8 := w.extractLsb' 56 8

/-- `SLOT = CMD[55:48]`. -/
def slotField (w : CmdWord) : U8 := w.extractLsb' 48 8

/-- `X16 = CMD[47:32]`: the LED index `k` or the wave width `W`. -/
def x16Field (w : CmdWord) : U16 := w.extractLsb' 32 16

/-- `C3 = CMD[31:24]`: red. -/
def c3Field (w : CmdWord) : U8 := w.extractLsb' 24 8

/-- `CH = CMD[25:24]`: READ_LED's channel selector. -/
def chField (w : CmdWord) : BitVec 2 := w.extractLsb' 24 2

/-- `C2 = CMD[23:16]`: green. -/
def c2Field (w : CmdWord) : U8 := w.extractLsb' 16 8

/-- `C1 = CMD[15:8]`: blue. -/
def c1Field (w : CmdWord) : U8 := w.extractLsb' 8 8

/-- `C0 = CMD[7:0]`: the duration or the point count `N`. -/
def c0Field (w : CmdWord) : U8 := w.extractLsb' 0 8

/-! ### The opcode map (30_encoding.md R65, R68, R69) -/

/-- The opcode byte of each command (R68). -/
def opByte : Op → U8
  | .nop => 0x00
  | .addGradient => 0x01
  | .appendCp => 0x02
  | .startGradient => 0x03
  | .step => 0x04
  | .readLed => 0x05
  | .readPhase => 0x06
  | .readStatus => 0x07

/-- The command an opcode byte selects; 0x08..0xFF are reserved (R68, R77). -/
def opOfByte (b : U8) : Option Op :=
  match b.toNat with
  | 0 => some .nop
  | 1 => some .addGradient
  | 2 => some .appendCp
  | 3 => some .startGradient
  | 4 => some .step
  | 5 => some .readLed
  | 6 => some .readPhase
  | 7 => some .readStatus
  | _ => none

/-- The format of each command (R68). -/
def formatOf : Op → Format
  | .nop => .Z
  | .addGradient => .G
  | .appendCp => .P
  | .startGradient => .S
  | .step => .Z
  | .readLed => .L
  | .readPhase => .Q
  | .readStatus => .Z

/-- The must-be-zero bits of each format (R65). -/
def mbzBits : Format → CmdWord
  | .Z => 0x00FFFFFFFFFFFFFF
  | .G => 0x00FF0000FFFFFF00
  | .P => 0x0000FFFF00000000
  | .S => 0x0000FFFFFFFFFFFF
  | .L => 0x00FF0000FCFFFFFF
  | .Q => 0x00FF0000FFFFFFFF

/-- The `match` column of R69. -/
def matchWord : Op → CmdWord
  | .nop => 0x0000000000000000
  | .addGradient => 0x0100000000000000
  | .appendCp => 0x0200000000000000
  | .startGradient => 0x0300000000000000
  | .step => 0x0400000000000000
  | .readLed => 0x0500000000000000
  | .readPhase => 0x0600000000000000
  | .readStatus => 0x0700000000000000

/-- The `mask` column of R69. -/
def maskWord : Op → CmdWord
  | .nop => 0xFFFFFFFFFFFFFFFF
  | .addGradient => 0xFFFF0000FFFFFF00
  | .appendCp => 0xFF00FFFF00000000
  | .startGradient => 0xFF00FFFFFFFFFFFF
  | .step => 0xFFFFFFFFFFFFFFFF
  | .readLed => 0xFFFF0000FCFFFFFF
  | .readPhase => 0xFFFF0000FFFFFFFF
  | .readStatus => 0xFFFFFFFFFFFFFFFF

/-! ### Decoding (30_encoding.md R70 to R79) -/

/-- Why a word or a byte string is no command. The first three are the illegal encodings of R77. -/
inductive Reject
  /-- `OP` in 0x08..0xFF -/
  | reservedOpcode
  /-- a 1 in a must-be-zero bit of the opcode's format -/
  | mbzBit
  /-- READ_LED with `CH = 3` -/
  | reservedChannel
  /-- fewer than the eight bytes of one command word (R79; log entry 9) -/
  | truncated
deriving DecidableEq, Repr

/-- The command of opcode `op` with the operand fields of `w` (R70 to R75). -/
def operandsOf (op : Op) (w : CmdWord) : Instr :=
  match op with
  | .nop => .nop
  | .addGradient => .addGradient (c0Field w) (x16Field w)
  | .appendCp => .appendCp (slotField w) (c3Field w) (c2Field w) (c1Field w) (c0Field w)
  | .startGradient => .startGradient (slotField w)
  | .step => .step
  | .readLed => .readLed (x16Field w) (chField w)
  | .readPhase => .readPhase (x16Field w)
  | .readStatus => .readStatus

/-- `decode` of R76: total on all 2^64 words. -/
def decodeWord (w : CmdWord) : Except Reject Instr :=
  match opOfByte (opField w) with
  | none => .error .reservedOpcode
  | some op =>
    if w &&& maskWord op ≠ matchWord op then .error .mbzBit
    else if op = .readLed ∧ chField w = 3#2 then .error .reservedChannel
    else .ok (operandsOf op w)

/-- The bytes of a command word on a narrow transport, least significant first: byte `n` carries
`CMD[8n+7:8n]` (20_memory.md R51). -/
def cmdBytes (w : CmdWord) : List U8 :=
  [w.extractLsb' 0 8, w.extractLsb' 8 8, w.extractLsb' 16 8, w.extractLsb' 24 8,
   w.extractLsb' 32 8, w.extractLsb' 40 8, w.extractLsb' 48 8, w.extractLsb' 56 8]

/-- The bytes of a response word on a narrow transport: byte `n` carries `RSP[8n+7:8n]` (R51). -/
def rspBytes (w : RspWord) : List U8 :=
  [w.extractLsb' 0 8, w.extractLsb' 8 8, w.extractLsb' 16 8, w.extractLsb' 24 8]

/-- The command word that eight bytes carry, the first byte least significant (R51). -/
def cmdOfBytes (b0 b1 b2 b3 b4 b5 b6 b7 : U8) : CmdWord :=
  b7 ++ b6 ++ b5 ++ b4 ++ b3 ++ b2 ++ b1 ++ b0

/-- Decode the command at the head of a byte string, and what follows it. Every command is eight bytes
(R79); a shorter string is refused by name. -/
def decodeBytes : List U8 → Except Reject (Instr × List U8)
  | b0 :: b1 :: b2 :: b3 :: b4 :: b5 :: b6 :: b7 :: rest =>
    match decodeWord (cmdOfBytes b0 b1 b2 b3 b4 b5 b6 b7) with
    | .ok i => .ok (i, rest)
    | .error e => .error e
  | _ => .error .truncated

/-! ### Encoding (30_encoding.md R64, R65, R71 to R75) -/

/-- The command word from its seven fields, most significant first (R64). -/
def packFields (op sl : U8) (x16 : U16) (c3 c2 c1 c0 : U8) : CmdWord :=
  op ++ sl ++ x16 ++ c3 ++ c2 ++ c1 ++ c0

/-- The command word of a command, every bit its format does not use 0 (R64, R65). -/
def encode : Instr → CmdWord
  | .nop => packFields (opByte .nop) 0 0 0 0 0 0
  | .addGradient n w => packFields (opByte .addGradient) 0 w 0 0 0 n
  | .appendCp sl r g b dur => packFields (opByte .appendCp) sl 0 r g b dur
  | .startGradient sl => packFields (opByte .startGradient) sl 0 0 0 0 0
  | .step => packFields (opByte .step) 0 0 0 0 0 0
  | .readLed k ch => packFields (opByte .readLed) 0 k (0#6 ++ ch) 0 0 0
  | .readPhase k => packFields (opByte .readPhase) 0 k 0 0 0 0
  | .readStatus => packFields (opByte .readStatus) 0 0 0 0 0 0

/-- The bytes of a command on a narrow transport (R51). -/
def encodeBytes (i : Instr) : List U8 := cmdBytes (encode i)

/-- The command word whose low `nbits` bits are those of `w`, every bit above them 0. -/
def tableCmdWord (nbits w : Nat) : CmdWord := BitVec.ofNat 64 (w % 2 ^ nbits)

/-- The command the decoder reads from the word whose bits are `w`, laid out as its transport bytes. -/
def decodeTableWord (nbits w : Nat) : Option Instr :=
  match decodeBytes (cmdBytes (tableCmdWord nbits w)) with
  | .ok (i, _) => some i
  | .error _ => none

end Sys2Proof
end

