-- ==== Sys2Proof/Machine/State.lean ====
section
/-! DEFINITION. The state of the block (10_state.md R24 to R39), the reasons a step can stop, and reset (R37). -/

namespace Sys2Proof.Machine

/-- The type `D` of the "floating-point" values (00_scope.md R11, R12). Under `EXACT` it is ℚ. Under
`BINARY32` a value is the rational that the binary32 datum denotes: R12 says no NaN, infinity or visible
negative zero arises, so the rational determines the datum (log entry 5). -/
abbrev D := Rat

/-- One LED: the source's LEDState (10_state.md R25). -/
structure Led where
  /-- red channel of the current color -/
  r : U8
  /-- green channel -/
  g : U8
  /-- blue channel -/
  b : U8
  /-- index of the segment the LED is in -/
  idx : U8
  /-- steps elapsed within that segment -/
  sc : U8
deriving DecidableEq, Repr

/-- One control point (10_state.md R28). -/
structure ControlPoint where
  r : U8
  g : U8
  b : U8
  /-- steps spent going from this point to the next -/
  dur : U8
deriving DecidableEq, Repr

/-- One SegmentDelta: the per-step change of each channel along a segment (10_state.md R29). -/
structure SegmentDelta where
  dr : D
  dg : D
  db : D
deriving DecidableEq, Repr

/-- The lifecycle of a slot (10_state.md R27, R33). -/
inductive Life
  | empty | filling | ready
deriving DecidableEq, Repr

/-- One gradient slot (10_state.md R27 to R29). -/
structure Slot where
  life : Life
  /-- `N`, the number of control points the gradient expects -/
  n : U8
  /-- `W`, the wave width -/
  w : U16
  /-- the append cursor: points appended so far -/
  count : U8
  /-- `PT`, `MAX_POINTS` entries -/
  pt : List ControlPoint
  /-- `DELTA`, `MAX_POINTS` entries -/
  delta : List SegmentDelta
deriving DecidableEq, Repr

/-- What the host does at the block's ports (30_encoding.md R63, 60_exceptions.md R162; log entries 2, 3). -/
inductive HostEvent
  /-- presents a command word and takes its response -/
  | command (w : CmdWord)
  /-- asserts `RST` between commands and releases it (70_reset_and_hazards.md R175) -/
  | reset
  /-- asserts `RST` while the command `w` is in flight (60_exceptions.md R162) -/
  | resetDuring (w : CmdWord)
deriving DecidableEq, Repr

/-- Why the machine would stop with a fault. It has no constructor: the block has no traps (60_exceptions.md
R159), every command ends with a response (70_reset_and_hazards.md R185) and no behaviour of it is stuck
(93_implementation_defined.md section 3), so nothing raises a fault. DEDUCED, safe (log entry 15). -/
inductive Fault
deriving DecidableEq, Repr

/-- Why the model would refuse an instruction. -/
inductive Refusal
  /-- raised only by an arm of `exec` whose instruction has no meaning yet; no arm is in that case. Safe: a
  refused step proves nothing about the hardware. -/
  | notModelled (mnemonic : String)
deriving DecidableEq, Repr

/-- The block's state. -/
structure State where
  /-- the instance's parameters (00_scope.md R5): the MODEL's own field, never written (log entry 1) -/
  params : Params
  /-- `LED`, `NUM_LEDS` entries (10_state.md R25) -/
  leds : List Led
  /-- `SLOT`, `MAX_GRADIENTS` entries (10_state.md R27) -/
  slots : List Slot
  /-- `USED`, the number of slots allocated so far (10_state.md R30) -/
  used : U8
  /-- `ACTIVE`, the active slot or NONE (10_state.md R31) -/
  active : U8
  /-- `FAULT`, the sticky fault bits (10_state.md R32) -/
  fault : U8
  /-- host events not taken yet, oldest first: the MODEL's own field (log entry 2) -/
  hostIn : List HostEvent
  /-- responses transferred to the host, oldest first: the MODEL's own field (log entry 2) -/
  hostOut : List RspWord
deriving DecidableEq, Repr

/-- `NONE`, the value of `ACTIVE` that is no slot index (10_state.md R31). -/
def activeNone : U8 := 0xFF

/-- An LED after reset: color 0, phase (0, 0) (10_state.md R37). -/
def Led.blank : Led := { r := 0, g := 0, b := 0, idx := 0, sc := 0 }

/-- A control-point entry after reset. R37 leaves it unspecified: DESIGN CHOICE zero, unsafe (log entry 4). -/
def ControlPoint.blank : ControlPoint := { r := 0, g := 0, b := 0, dur := 0 }

/-- A delta entry after reset. R37 leaves it unspecified: DESIGN CHOICE zero, unsafe (log entry 4). -/
def SegmentDelta.blank : SegmentDelta := { dr := 0, dg := 0, db := 0 }

/-- A slot after reset (10_state.md R37). -/
def Slot.blank (p : Params) : Slot :=
  { life := .empty, n := 0, w := 0, count := 0,
    pt := List.replicate p.maxPoints ControlPoint.blank,
    delta := List.replicate p.maxPoints SegmentDelta.blank }

/-- The reset state of the instance `p` (10_state.md R37), with nothing pending at either port. -/
def State.resetWith (p : Params) : State :=
  { params := p
    leds := List.replicate p.numLeds Led.blank
    slots := List.replicate p.maxGradients (Slot.blank p)
    used := 0
    active := activeNone
    fault := 0
    hostIn := []
    hostOut := [] }

/-- The machine right after reset (10_state.md R37), for the instance of log entry 1. -/
def State.reset : State := State.resetWith Params.default

end Sys2Proof.Machine
end

