-- ==== Sys2Proof/Machine/Arith.lean ====
section
/-! DEFINITION. The arithmetic of `D` (00_scope.md R11 to R15): `toD`, `addD`, `subD`, `mulD`, `divD`, `FLOOR`,
`CLAMP` and `ROUND`, under both values of the parameter `ARITH`. The binary32 format is the one R12 describes;
that rule marks it as general knowledge (log entry 5). -/

namespace Sys2Proof.Machine

/-! ### binary32 rounding (00_scope.md R12) -/

/-- `2^k` for an integer `k`. -/
def pow2 : Int → Rat
  | .ofNat n => ((2 ^ n : Nat) : Rat)
  | .negSucc n => 1 / ((2 ^ (n + 1) : Nat) : Rat)

/-- The exponent `e` with `2^e ≤ |x| < 2^(e+1)`, for `x ≠ 0`. -/
def exponent2 (x : Rat) : Int :=
  let e : Int := (Nat.log2 x.num.natAbs : Int) - (Nat.log2 x.den : Int)
  if pow2 e ≤ |x| then e else e - 1

/-- The exponent of the unit in the last place of binary32 at `x`: 24 significant bits, and no finer than
`2^-149`, the spacing of the subnormals. -/
def ulpExponent (x : Rat) : Int := max (exponent2 x - 23) (-149)

/-- The integer nearest to `x`, ties to even. -/
def nearestEven (x : Rat) : Int :=
  let f := x.floor
  if x - f < 1 / 2 then f
  else if 1 / 2 < x - f then f + 1
  else if f % 2 = 0 then f else f + 1

/-- `x` rounded once to binary32, to nearest with ties to even. The exponent has no upper bound here: R12 says
no infinity arises, every magnitude being at most 255·255 (log entry 5). -/
def nearest32 (x : Rat) : Rat :=
  if x = 0 then 0 else nearestEven (x / pow2 (ulpExponent x)) * pow2 (ulpExponent x)

/-- The binary32 datum of a representable value: 1 sign bit, 8 exponent bits, 23 fraction bits (R12). -/
def bits32 (x : D) : BitVec 32 :=
  if x = 0 then 0
  else
    let m := (x / pow2 (ulpExponent x)).num.natAbs
    let magnitude := (ulpExponent x + 149).toNat * 2 ^ 23 + m
    BitVec.ofNat 32 ((if x < 0 then 2 ^ 31 else 0) + magnitude)

/-- The value a finite binary32 datum denotes (R12). -/
def value32 (v : BitVec 32) : Rat :=
  let e := (v.extractLsb' 23 8).toNat
  let f := (v.extractLsb' 0 23).toNat
  let magnitude : Rat :=
    if e = 0 then (f : Rat) * pow2 (-149) else ((2 ^ 23 + f : Nat) : Rat) * pow2 ((e : Int) - 150)
  if v.msb then -magnitude else magnitude

/-! ### The operations of `D` -/

/-- The value of `D` that an exact result becomes under `ARITH`: itself under `EXACT` (R11), rounded once under
`BINARY32` (R12). -/
def fitD (a : Arith) (x : Rat) : D :=
  match a with
  | .exact => x
  | .binary32 => nearest32 x

/-- `toD(n)`. -/
def toD (a : Arith) (n : Int) : D := fitD a n

/-- `addD(x, y)`. -/
def addD (a : Arith) (x y : D) : D := fitD a (x + y)

/-- `subD(x, y)`. -/
def subD (a : Arith) (x y : D) : D := fitD a (x - y)

/-- `mulD(x, y)`. -/
def mulD (a : Arith) (x y : D) : D := fitD a (x * y)

/-- `divD(x, y)`. Every divisor a command divides by is at least 1 (R12). -/
def divD (a : Arith) (x y : D) : D := fitD a (x / y)

/-- `FLOOR(x)`, the greatest integer at most `x` (R13). -/
def floorD (x : D) : Int := x.floor

/-- `CLAMP(x)`, the saturation of the color adder (R14). -/
def clampD (x : D) : D := if x < 0 then 0 else if 255 < x then 255 else x

/-- `ROUND(x) = FLOOR(x + 1/2)`, ties toward +∞ (R15). The half is added exactly in both arithmetics, as R15
says it is (log entry 14). -/
def roundD (x : D) : Int := floorD (x + 1 / 2)

/-- `ROUND(CLAMP(x))` stored as u8 (R15). -/
def colorU8 (x : D) : U8 := BitVec.ofInt 8 (roundD (clampD x))

end Sys2Proof.Machine
end

