-- ==== Sys2Proof/Machine/Flags.lean ====
section
/-! DEFINITION. Status codes (60_exceptions.md R155) and the sticky FAULT bits (10_state.md R32): the only
flags the block has (R39). -/

namespace Sys2Proof.Machine

/-- The status codes of a response (60_exceptions.md R155). -/
inductive Status
  | ok
  | capacityExceeded
  | invalidDuration
  | indexOutOfRange
  | notReady
  | invalidConfig
  | illegalCommand
  | stalePhase
deriving DecidableEq, Repr

/-- The numeric value of a status code (R155). -/
def statusCode : Status → U8
  | .ok => 0x00
  | .capacityExceeded => 0x01
  | .invalidDuration => 0x02
  | .indexOutOfRange => 0x03
  | .notReady => 0x04
  | .invalidConfig => 0x05
  | .illegalCommand => 0x06
  | .stalePhase => 0x07

/-- `FAULT` bit 0, `STALE_PHASE` (R32). -/
def stalePhaseBit : U8 := 0x01

/-- `FAULT` bit 1, `ILLEGAL_CMD` (R32). -/
def illegalCmdBit : U8 := 0x02

/-- The bits of `FAULT` that exist; bits 7:2 are reserved (R32). -/
def faultImplemented : U8 := 0x03

/-- The FAULT bit that ending a command with this status sets, 0 where it sets none (60_exceptions.md R158). -/
def faultBitOf : Status → U8
  | .ok => 0
  | .capacityExceeded => 0
  | .invalidDuration => 0
  | .indexOutOfRange => 0
  | .notReady => 0
  | .invalidConfig => 0
  | .illegalCommand => illegalCmdBit
  | .stalePhase => stalePhaseBit

/-- `FAULT` after a command that ends with this status: bits are set, never cleared (R32, R158). -/
def faultAfter (st : Status) (f : U8) : U8 := f ||| faultBitOf st

/-- `FAULT` as READ_STATUS reads it: the reserved bits 7:2 read as 0 (R32; log entry 13). -/
def faultRead (f : U8) : U8 := f &&& faultImplemented

end Sys2Proof.Machine
end

