-- ==== Sys2Proof/Machine/Ops.lean ====
section
/-! DEFINITION. The named operations over the block's arrays and ports: reading and writing one entry,
responding, ending a command with an error (this hardware's taking an exception), and reset. -/

namespace Sys2Proof.Machine

/-! ### Array entries (00_scope.md R9, 20_memory.md R52)
An index past the end of an array occurs in no state that a run reaches; there a read gives the blank entry and
a write writes nothing (log entry 6). -/

/-- `LED[k]`. -/
def State.led (s : State) (k : Nat) : Led := s.leds.getD k Led.blank

/-- `SLOT[i]`. -/
def State.slot (s : State) (i : Nat) : Slot := s.slots.getD i (Slot.blank s.params)

/-- `PT[i]` of a slot. -/
def Slot.point (sl : Slot) (i : Nat) : ControlPoint := sl.pt.getD i ControlPoint.blank

/-- `DELTA[i]` of a slot. -/
def Slot.segDelta (sl : Slot) (i : Nat) : SegmentDelta := sl.delta.getD i SegmentDelta.blank

/-- `SLOT[i] <- sl`. -/
def State.setSlot (s : State) (i : Nat) (sl : Slot) : State := { s with slots := s.slots.set i sl }

/-- The LED memory rewritten. -/
def State.setLeds (s : State) (ls : List Led) : State := { s with leds := ls }

/-- `USED <- v`. -/
def State.setUsed (s : State) (v : U8) : State := { s with used := v }

/-- `ACTIVE <- v`. -/
def State.setActive (s : State) (v : U8) : State := { s with active := v }

/-- `FAULT <- v`. -/
def State.setFault (s : State) (v : U8) : State := { s with fault := v }

/-! ### Responses and errors (00_scope.md R10, 30_encoding.md R66, 60_exceptions.md R158) -/

/-- The response word, `STATUS` in bits 31:24 and `DATA` in bits 23:0 (30_encoding.md R66). -/
def rspWord (st : Status) (data : RspData) : RspWord := statusCode st ++ data

/-- `respond(status, data)`: the command ends and its response transfers to the host (R10, R63). -/
def State.respond (s : State) (st : Status) (data : RspData) : State :=
  { s with hostOut := s.hostOut ++ [rspWord st data] }

/-- `raise Error(code)`: the command ends with `respond(code, 0)` and changes nothing but the FAULT bit of that
code (R10, R158). The block's one way of taking an exception; there is none to return from (R160). -/
def State.raiseError (s : State) (st : Status) : State :=
  (s.setFault (faultAfter st s.fault)).respond st 0

/-! ### The host's side of the ports (30_encoding.md R63) -/

/-- The oldest pending host event is taken. -/
def State.popHost (s : State) : State := { s with hostIn := s.hostIn.tail }

/-- Reset: every field of the spec's state takes its reset value (10_state.md R37, 70_reset_and_hazards.md R175).
The instance's parameters and what the host has still to send or has already received stay (log entry 3). -/
def State.applyReset (s : State) : State :=
  { State.resetWith s.params with hostIn := s.hostIn, hostOut := s.hostOut }

end Sys2Proof.Machine
end

