-- ==== Sys2Proof/Machine/Operands.lean ====
section
/-! DEFINITION. What the operands of the commands select and when they are in range (30_encoding.md R70 to R75,
20_memory.md R56). -/

namespace Sys2Proof.Machine

/-- The channel that `CH` selects: 0 red, 1 green, 2 blue; 3 selects none (30_encoding.md R74). -/
def channelOf (ch : BitVec 2) (l : Led) : Option U8 :=
  match ch.toNat with
  | 0 => some l.r
  | 1 => some l.g
  | 2 => some l.b
  | _ => none

/-- `N = 0 or N > MAX_POINTS or W = 0 or W > NUM_LEDS` (40_gradient_load.md R86). -/
def configInvalid (p : Params) (n : U8) (w : U16) : Bool :=
  n.toNat == 0 || decide (p.maxPoints < n.toNat) || w.toNat == 0 || decide (p.numLeds < w.toNat)

/-- `s >= USED`: the slot index names no allocated slot (40_gradient_load.md R89, 41_activation.md R110). -/
def State.slotUnallocated (s : State) (sl : U8) : Bool := decide (s.used.toNat ≤ sl.toNat)

/-- `k >= NUM_LEDS` (43_readout.md R140, R142). -/
def State.ledOutOfRange (s : State) (k : U16) : Bool := decide (s.params.numLeds ≤ k.toNat)

/-- `zext_24(v)` of a u8 value (00_scope.md R7, 30_encoding.md R67). -/
def data8 (v : U8) : RspData := v.setWidth 24

/-- The `DATA` fields of 30_encoding.md R67, `DATA[23:16]` first. -/
def dataBytes (hi mid lo : U8) : RspData := hi ++ mid ++ lo

end Sys2Proof.Machine
end

