-- ==== Sys2Proof/Machine/Activation.lean ====
section
/-! DEFINITION. The delta table, the placement pipeline and START_GRADIENT (41_activation.md R101 to R110). -/

namespace Sys2Proof.Machine

/-! ### Phase 1: COMPUTE_DELTAS (41_activation.md R101) -/

/-- One channel of a segment's delta: `divD(toD(next - cur), toD(dur))`. -/
def deltaChannel (a : Arith) (cur next dur : U8) : D :=
  divD a (toD a ((next.toNat : Int) - (cur.toNat : Int))) (toD a (dur.toNat : Int))

/-- The delta of segment `i`, from point `i` to point `(i + 1) mod N`. -/
def segmentDelta (a : Arith) (sl : Slot) (i : Nat) : SegmentDelta :=
  let cur := sl.point i
  let nxt := sl.point ((i + 1) % sl.n.toNat)
  { dr := deltaChannel a cur.r nxt.r cur.dur
    dg := deltaChannel a cur.g nxt.g cur.dur
    db := deltaChannel a cur.b nxt.b cur.dur }

/-- COMPUTE_DELTAS: entries `0..N-1` of `DELTA` are written, the others kept. -/
def computeDeltas (a : Arith) (sl : Slot) : Slot :=
  { sl with delta := sl.delta.mapIdx fun i d => if i < sl.n.toNat then segmentDelta a sl i else d }

/-! ### Phase 2: PLACE (41_activation.md R102, R103) -/

/-- `numWaves = NUM_LEDS div W` (R103). -/
def numWaves (p : Params) (sl : Slot) : Nat := p.numLeds / sl.w.toNat

/-- `L = NUM_LEDS div numWaves`, the source's ledsPerWave (R103). -/
def ledsPerWave (p : Params) (sl : Slot) : Nat := p.numLeds / numWaves p sl

/-- How many LEDs placement writes: LEDs `0 .. numWaves·L - 1` (R104, R108). -/
def placedLeds (p : Params) (sl : Slot) : Nat := numWaves p sl * ledsPerWave p sl

/-- `pointPos = divD(toD(j·N), toD(L))`. -/
def pointPos (a : Arith) (sl : Slot) (L j : Nat) : D :=
  divD a (toD a ((j * sl.n.toNat : Nat) : Int)) (toD a (L : Int))

/-- `pointIdx = FLOOR(pointPos)`. -/
def pointIdx (a : Arith) (sl : Slot) (L j : Nat) : Nat := (floorD (pointPos a sl L j)).toNat

/-- `subPoint = subD(pointPos, toD(pointIdx))`. -/
def subPoint (a : Arith) (sl : Slot) (L j : Nat) : D :=
  subD a (pointPos a sl L j) (toD a (pointIdx a sl L j : Int))

/-- `step = mulD(subPoint, toD(P.dur))`, the fractional steps into the segment. -/
def placeStep (a : Arith) (sl : Slot) (L j : Nat) : D :=
  mulD a (subPoint a sl L j) (toD a ((sl.point (pointIdx a sl L j)).dur.toNat : Int))

/-- One placed channel: `ROUND(CLAMP(addD(toD(P.ch), mulD(step, dch))))`. -/
def placeChannel (a : Arith) (c : U8) (step d : D) : U8 :=
  colorU8 (addD a (toD a (c.toNat : Int)) (mulD a step d))

/-- PLACE: the LED at local offset `j` of a wave block of `L` LEDs (R102). -/
def placeLed (a : Arith) (sl : Slot) (L j : Nat) : Led :=
  let i := pointIdx a sl L j
  let t := placeStep a sl L j
  { r := placeChannel a (sl.point i).r t (sl.segDelta i).dr
    g := placeChannel a (sl.point i).g t (sl.segDelta i).dg
    b := placeChannel a (sl.point i).b t (sl.segDelta i).db
    idx := BitVec.ofNat 8 i
    sc := BitVec.ofInt 8 (floorD t) }

/-! ### ACTIVATE and START_GRADIENT (41_activation.md R108, R110) -/

/-- The LED memory after ACTIVATE: trailing LEDs keep their color and phase (R104). -/
def placeLeds (p : Params) (sl : Slot) (ls : List Led) : List Led :=
  ls.mapIdx fun k l =>
    if k < placedLeds p sl then placeLed p.arith sl (ledsPerWave p sl) (k % ledsPerWave p sl) else l

/-- ACTIVATE(s): place every assigned LED, then make the slot active (R108). -/
def State.activate (s : State) (sl : U8) : State :=
  (s.setLeds (placeLeds s.params (s.slot sl.toNat) s.leds)).setActive sl

/-- START_GRADIENT (R110). -/
def execStartGradient (sl : U8) (s : State) : Host.Outcome State Fault Refusal :=
  if s.slotUnallocated sl then .next (s.raiseError .indexOutOfRange)
  else if (s.slot sl.toNat).life ≠ .ready then .next (s.raiseError .notReady)
  else .next ((s.activate sl).respond .ok 0)

end Sys2Proof.Machine
end

