-- ==== Sys2Proof/Machine/Loading.lean ====
section
/-! DEFINITION. Gradient loading: ADD_GRADIENT and APPEND_CP (40_gradient_load.md R86 to R92). -/

namespace Sys2Proof.Machine

/-- A slot as ADD_GRADIENT leaves it: FILLING, with `N`, `W` and an append cursor of 0 (R86). -/
def Slot.allocated (sl : Slot) (n : U8) (w : U16) : Slot :=
  { sl with life := .filling, n := n, w := w, count := 0 }

/-- ADD_GRADIENT (R86). -/
def execAddGradient (n : U8) (w : U16) (s : State) : Host.Outcome State Fault Refusal :=
  if configInvalid s.params n w then .next (s.raiseError .invalidConfig)
  else if s.used.toNat = s.params.maxGradients then .next (s.raiseError .capacityExceeded)
  else
    .next (((s.setSlot s.used.toNat ((s.slot s.used.toNat).allocated n w)).setUsed (s.used + 1)).respond
      .ok (data8 s.used))

/-- `PT[count] <- pt; count <- count + 1` (R88). -/
def Slot.appended (sl : Slot) (pt : ControlPoint) : Slot :=
  { sl with pt := sl.pt.set sl.count.toNat pt, count := sl.count + 1 }

/-- A slot whose Nth point has just been stored: READY, with its delta table (R91). -/
def Slot.completed (a : Arith) (sl : Slot) : Slot := computeDeltas a { sl with life := .ready }

/-- Whether the next append is the slot's Nth: `count + 1 = N` (R88). -/
def Slot.lastAppend (sl : Slot) : Bool := sl.count.toNat + 1 == sl.n.toNat

/-- APPEND_CP past its checks: the point is stored, and the Nth point completes and activates the slot
(R88, R91). -/
def State.appendPoint (s : State) (sl : U8) (pt : ControlPoint) : State :=
  let filled := (s.slot sl.toNat).appended pt
  if (s.slot sl.toNat).lastAppend then
    (s.setSlot sl.toNat (filled.completed s.params.arith)).activate sl
  else s.setSlot sl.toNat filled

/-- APPEND_CP (R88 to R91). -/
def execAppendCp (sl r g b dur : U8) (s : State) : Host.Outcome State Fault Refusal :=
  if s.slotUnallocated sl then .next (s.raiseError .indexOutOfRange)
  else if (s.slot sl.toNat).count = (s.slot sl.toNat).n then .next (s.raiseError .capacityExceeded)
  else if dur = 0 then .next (s.raiseError .invalidDuration)
  else .next ((s.appendPoint sl { r := r, g := g, b := b, dur := dur }).respond .ok 0)

end Sys2Proof.Machine
end

