-- ==== Sys2Proof/Machine/Readout.lean ====
section
/-! DEFINITION. Readout and housekeeping: READ_LED, READ_PHASE, READ_STATUS and NOP (43_readout.md R140 to R146). -/

namespace Sys2Proof.Machine

/-- NOP (R146). -/
def execNop (s : State) : Host.Outcome State Fault Refusal := .next (s.respond .ok 0)

/-- READ_LED (R140). The term with `CH = 3` is no command: its word is answered IllegalCommand before any other
check (30_encoding.md R77, R78; log entry 7). -/
def execReadLed (k : U16) (ch : BitVec 2) (s : State) : Host.Outcome State Fault Refusal :=
  match channelOf ch (s.led k.toNat) with
  | none => .next (s.raiseError .illegalCommand)
  | some v =>
    if s.ledOutOfRange k then .next (s.raiseError .indexOutOfRange)
    else if s.active = activeNone then .next (s.raiseError .notReady)
    else .next (s.respond .ok (data8 v))

/-- READ_PHASE (R142). -/
def execReadPhase (k : U16) (s : State) : Host.Outcome State Fault Refusal :=
  if s.ledOutOfRange k then .next (s.raiseError .indexOutOfRange)
  else if s.active = activeNone then .next (s.raiseError .notReady)
  else .next (s.respond .ok (dataBytes 0 (s.led k.toNat).idx (s.led k.toNat).sc))

/-- READ_STATUS (R144). -/
def execReadStatus (s : State) : Host.Outcome State Fault Refusal :=
  .next (s.respond .ok (dataBytes s.used s.active (faultRead s.fault)))

end Sys2Proof.Machine
end

