-- ==== Sys2Proof/Machine/Stepping.lean ====
section
/-! DEFINITION. STEP: the delta accumulator, the saturating adder and the segment sequencer (42_step.md R120 to
R127). -/

namespace Sys2Proof.Machine

/-- The candidate color of one channel: `ROUND(CLAMP(addD(toD(c), delta)))` (R122). -/
def stepChannel (a : Arith) (c : U8) (d : D) : U8 := colorU8 (addD a (toD a (c.toNat : Int)) d)

/-- The segment boundary test `sc >= dur - 1`, on mathematical integers (R123). -/
def atBoundary (sl : Slot) (l : Led) : Bool :=
  decide ((sl.point l.idx.toNat).dur.toNat ≤ l.sc.toNat + 1)

/-- The next segment, `(i + 1) mod N` (R124). -/
def nextSegment (sl : Slot) (i : U8) : Nat := (i.toNat + 1) % sl.n.toNat

/-- The LED at a segment boundary: it moves to the next segment and snaps to its point's color (R124). -/
def snapLed (sl : Slot) (l : Led) : Led :=
  let p := sl.point (nextSegment sl l.idx)
  { r := p.r, g := p.g, b := p.b, idx := BitVec.ofNat 8 (nextSegment sl l.idx), sc := 0 }

/-- The LED within a segment: the candidate color, and `sc + 1` (R122, R124). -/
def advanceLed (a : Arith) (sl : Slot) (l : Led) : Led :=
  let d := sl.segDelta l.idx.toNat
  { r := stepChannel a l.r d.dr, g := stepChannel a l.g d.dg, b := stepChannel a l.b d.db,
    idx := l.idx, sc := l.sc + 1 }

/-- One LED's transition under STEP (R120, R125). -/
def stepLed (a : Arith) (sl : Slot) (l : Led) : Led :=
  if atBoundary sl l then snapLed sl l else advanceLed a sl l

/-- Some LED's `idx` is outside the slot: `idx >= N` (R121). -/
def anyStale (sl : Slot) (ls : List Led) : Bool := ls.any fun l => decide (sl.n.toNat ≤ l.idx.toNat)

/-- STEP (R120). -/
def execStep (s : State) : Host.Outcome State Fault Refusal :=
  if s.active = activeNone then .next (s.raiseError .notReady)
  else if anyStale (s.slot s.active.toNat) s.leds then .next (s.raiseError .stalePhase)
  else
    .next ((s.setLeds (s.leds.map (stepLed s.params.arith (s.slot s.active.toNat)))).respond .ok 0)

end Sys2Proof.Machine
end

