-- ==== Sys2Proof/Machine/Dispatch.lean ====
section
/-! DEFINITION. One arm per command: the meaning of each. -/

namespace Sys2Proof.Machine

def exec (i : Instr) (s : State) : Host.Outcome State Fault Refusal :=
  match i with
  | .nop => Sys2Proof.Machine.execNop s
  | .addGradient n w => Sys2Proof.Machine.execAddGradient n w s
  | .appendCp sl r g b dur => Sys2Proof.Machine.execAppendCp sl r g b dur s
  | .startGradient sl => Sys2Proof.Machine.execStartGradient sl s
  | .step => Sys2Proof.Machine.execStep s
  | .readLed k ch => Sys2Proof.Machine.execReadLed k ch s
  | .readPhase k => Sys2Proof.Machine.execReadPhase k s
  | .readStatus => Sys2Proof.Machine.execReadStatus s

end Sys2Proof.Machine
end

