-- ==== Sys2Proof/Machine/Transaction.lean ====
section
/-! DEFINITION. What one accepted host event does: a command word is decoded and runs, an illegal word is
answered, a reset takes effect (30_encoding.md R63, R76 to R78; 60_exceptions.md R162; 70_reset_and_hazards.md
R175). `step` only calls this. -/

namespace Sys2Proof.Machine

/-- An illegal word is accepted like any other command and answered IllegalCommand; it sets
`FAULT.ILLEGAL_CMD` and changes no other state (30_encoding.md R78). -/
def answerIllegal (s : State) : Host.Outcome State Fault Refusal := .next (s.raiseError .illegalCommand)

/-- One accepted command word (30_encoding.md R76 to R78). -/
def runWord (w : CmdWord) (s : State) : Host.Outcome State Fault Refusal :=
  match decodeWord w with
  | .ok i => exec i s
  | .error _ => answerIllegal s

/-- One host event. A command in flight when `RST` is asserted is abandoned with no response, and no partial
effect of it survives (60_exceptions.md R162). -/
def runEvent (e : HostEvent) (s : State) : Host.Outcome State Fault Refusal :=
  match e with
  | .command w => runWord w s
  | .reset => .next s.applyReset
  | .resetDuring _ => .next s.applyReset

/-- The word the host presents next, put before everything else it has pending. -/
def presentWord (w : CmdWord) (s : State) : State := { s with hostIn := .command w :: s.hostIn }

end Sys2Proof.Machine
end

