-- ==== Sys2Proof/Machine/Step.lean ====
section
/-! DEFINITION. One step: the oldest pending host event is taken and runs to completion (00_scope.md R2,
20_memory.md R54, R57). -/

namespace Sys2Proof.Machine

/-- One step. With nothing pending the block is idle and holds its state (60_exceptions.md R169; log entry 2). -/
def step (s : State) : Host.Outcome State Fault Refusal :=
  match s.hostIn with
  | [] => .next s
  | e :: _ => runEvent e s.popHost

/-- `s` with the command word of these bits presented as the host's next command, so that the next step runs it
(log entry 2: a program is loaded from outside the machine). -/
def State.withFetchWord (s : State) (nbits w : Nat) : State := presentWord (tableCmdWord nbits w) s

end Sys2Proof.Machine
end

