-- ==== Sys2Proof/Machine/Assembler.lean ====
section
/-! DEFINITION. The assembler syntax and the pseudo-commands (30_encoding.md R80, R81): source lines, what each
expands to, and the command words of a program. What R80 and R81 leave open of the text (white space, blank
lines, letter case, how a numeric channel is written, a GRADIENT of no points) is log entry 12. -/

namespace Sys2Proof.Machine

/-- One line of assembler source: a command, or a pseudo-command of R81. -/
inductive Source
  | core (i : Instr)
  | getRed (k : U16)
  | getGreen (k : U16)
  | getBlue (k : U16)
  | stepN (n : Nat)
  /-- `GRADIENT s, N, W, (r0,g0,b0,d0), ...` with one tuple per point -/
  | gradient (sl n : U8) (w : U16) (pts : List ControlPoint)
deriving DecidableEq, Repr

/-- The append of one point to a slot. -/
def appendOf (sl : U8) (p : ControlPoint) : Instr := .appendCp sl p.r p.g p.b p.dur

/-- The commands a source line stands for (R81). -/
def expand : Source → List Instr
  | .core i => [i]
  | .getRed k => [.readLed k 0]
  | .getGreen k => [.readLed k 1]
  | .getBlue k => [.readLed k 2]
  | .stepN n => List.replicate n .step
  | .gradient sl n w pts => .addGradient n w :: pts.map (appendOf sl)

/-- Why an assembler rejects a line (R80). -/
inductive AsmError
  | badCharacter
  | badSyntax
  | unknownMnemonic
  | badNumber
  /-- an operand that does not fit its field -/
  | doesNotFit
  /-- a channel other than r, g, b (or 0, 1, 2) -/
  | badChannel
  /-- a GRADIENT whose tuples are not `N` in number -/
  | wrongPointCount
deriving DecidableEq, Repr

/-- The tokens of a line. -/
inductive Token
  | word (cs : List Char)
  | comma
  | lparen
  | rparen
deriving DecidableEq, Repr

/-- The word read so far, if any, before the tokens that follow it. -/
def flushWord (acc : List Char) (ts : List Token) : List Token :=
  if acc.isEmpty then ts else .word acc.reverse :: ts

/-- The tokens of a line; `;` starts a comment that runs to the end of the line (R80). -/
def tokenize : List Char → List Char → Except AsmError (List Token)
  | [], acc => .ok (flushWord acc [])
  | c :: cs, acc =>
    if c = ';' then .ok (flushWord acc [])
    else if c.isAlphanum || c = '_' then tokenize cs (c :: acc)
    else if c = ' ' || c = '\t' then (tokenize cs []).map (flushWord acc)
    else if c = ',' then (tokenize cs []).map fun ts => flushWord acc (.comma :: ts)
    else if c = '(' then (tokenize cs []).map fun ts => flushWord acc (.lparen :: ts)
    else if c = ')' then (tokenize cs []).map fun ts => flushWord acc (.rparen :: ts)
    else .error .badCharacter

/-- The value of a digit, decimal or hexadecimal. -/
def digitValue (c : Char) : Option Nat :=
  if '0' ≤ c ∧ c ≤ '9' then some (c.toNat - '0'.toNat)
  else if 'a' ≤ c ∧ c ≤ 'f' then some (c.toNat - 'a'.toNat + 10)
  else if 'A' ≤ c ∧ c ≤ 'F' then some (c.toNat - 'A'.toNat + 10)
  else none

/-- The number that digits of a base write, most significant first, after `acc`. -/
def digitsValue (base : Nat) : List Char → Nat → Option Nat
  | [], acc => some acc
  | c :: cs, acc =>
    match digitValue c with
    | some d => if d < base then digitsValue base cs (acc * base + d) else none
    | none => none

/-- A decimal or `0x` hexadecimal number (R80). -/
def parseNumber : List Char → Except AsmError Nat
  | [] => .error .badNumber
  | '0' :: 'x' :: c :: cs => (digitsValue 16 (c :: cs) 0).elim (.error .badNumber) .ok
  | c :: cs => (digitsValue 10 (c :: cs) 0).elim (.error .badNumber) .ok

/-- An operand for a field of `bits` bits; one that does not fit is rejected (R80). -/
def parseField (bits : Nat) (cs : List Char) : Except AsmError (BitVec bits) :=
  match parseNumber cs with
  | .ok n => if n < 2 ^ bits then .ok (BitVec.ofNat bits n) else .error .doesNotFit
  | .error e => .error e

/-- READ_LED's channel: one of r, g, b, or 0, 1, 2 (R80). R80 leaves open whether a numeric channel may be
written as any number: DESIGN CHOICE, only the tokens `0`, `1` and `2`, so `0x1` and `02` are rejected. Safe
(log entry 12). -/
def parseChannel (cs : List Char) : Except AsmError (BitVec 2) :=
  match cs with
  | ['r'] => .ok 0
  | ['g'] => .ok 1
  | ['b'] => .ok 2
  | ['0'] => .ok 0
  | ['1'] => .ok 1
  | ['2'] => .ok 2
  | _ => .error .badChannel

/-- Words separated by commas. -/
def commaWords : List Token → Option (List (List Char))
  | [.word a] => some [a]
  | .word a :: .comma :: ts => (commaWords ts).map (a :: ·)
  | _ => none

/-- The operands of a command. -/
def operandWords : List Token → Except AsmError (List (List Char))
  | [] => .ok []
  | t :: ts => (commaWords (t :: ts)).elim (.error .badSyntax) .ok

/-- One control point from its four operand words. -/
def parsePoint (r g b d : List Char) : Except AsmError ControlPoint := do
  return { r := ← parseField 8 r, g := ← parseField 8 g, b := ← parseField 8 b, dur := ← parseField 8 d }

/-- The tuples `(r,g,b,d), ...` of a GRADIENT (R81), at least one (log entry 12). -/
def parsePoints : List Token → Except AsmError (List ControlPoint)
  | [.lparen, .word r, .comma, .word g, .comma, .word b, .comma, .word d, .rparen] => do
    return [← parsePoint r g b d]
  | .lparen :: .word r :: .comma :: .word g :: .comma :: .word b :: .comma :: .word d :: .rparen
      :: .comma :: ts => do
    return (← parsePoint r g b d) :: (← parsePoints ts)
  | _ => .error .badSyntax

/-- The operands of a GRADIENT (R81). R81 leaves open the text of one with `N = 0` and no tuples: DESIGN CHOICE,
such a line is rejected. Safe: the ADD_GRADIENT it would stand for can be written itself (log entry 12). -/
def parseGradient : List Token → Except AsmError Source
  | .word sl :: .comma :: .word n :: .comma :: .word w :: .comma :: ts => do
    let sl ← parseField 8 sl
    let n ← parseField 8 n
    let w ← parseField 16 w
    let pts ← parsePoints ts
    if pts.length = n.toNat then .ok (.gradient sl n w pts) else .error .wrongPointCount
  | _ => .error .badSyntax

/-- A command or a pseudo-command other than GRADIENT, from its mnemonic and operands in the order of R80, R81. -/
def parsePlain (m : List Char) (ops : List (List Char)) : Except AsmError Source :=
  if m = "NOP".toList then match ops with
    | [] => .ok (.core .nop)
    | _ => .error .badSyntax
  else if m = "ADD_GRADIENT".toList then match ops with
    | [n, w] => do return .core (.addGradient (← parseField 8 n) (← parseField 16 w))
    | _ => .error .badSyntax
  else if m = "APPEND_CP".toList then match ops with
    | [sl, r, g, b, d] => do
      return .core (.appendCp (← parseField 8 sl) (← parseField 8 r) (← parseField 8 g) (← parseField 8 b)
        (← parseField 8 d))
    | _ => .error .badSyntax
  else if m = "START_GRADIENT".toList then match ops with
    | [sl] => do return .core (.startGradient (← parseField 8 sl))
    | _ => .error .badSyntax
  else if m = "STEP".toList then match ops with
    | [] => .ok (.core .step)
    | _ => .error .badSyntax
  else if m = "READ_LED".toList then match ops with
    | [k, ch] => do return .core (.readLed (← parseField 16 k) (← parseChannel ch))
    | _ => .error .badSyntax
  else if m = "READ_PHASE".toList then match ops with
    | [k] => do return .core (.readPhase (← parseField 16 k))
    | _ => .error .badSyntax
  else if m = "READ_STATUS".toList then match ops with
    | [] => .ok (.core .readStatus)
    | _ => .error .badSyntax
  else if m = "GET_RED".toList then match ops with
    | [k] => do return .getRed (← parseField 16 k)
    | _ => .error .badSyntax
  else if m = "GET_GREEN".toList then match ops with
    | [k] => do return .getGreen (← parseField 16 k)
    | _ => .error .badSyntax
  else if m = "GET_BLUE".toList then match ops with
    | [k] => do return .getBlue (← parseField 16 k)
    | _ => .error .badSyntax
  else if m = "STEPN".toList then match ops with
    | [n] => do return .stepN (← parseNumber n)
    | _ => .error .badSyntax
  else .error .unknownMnemonic

/-- One line of source; a blank or comment line stands for nothing. -/
def parseLine (cs : List Char) : Except AsmError (Option Source) := do
  match ← tokenize cs [] with
  | [] => return none
  | .word m :: ts =>
    if m = "GRADIENT".toList then return some (← parseGradient ts)
    else return some (← parsePlain m (← operandWords ts))
  | _ => .error .badSyntax

/-- The commands of a program, line by line. -/
def assemble : List (List Char) → Except AsmError (List Instr)
  | [] => .ok []
  | l :: ls => do
    let src ← parseLine l
    return (src.elim [] expand) ++ (← assemble ls)

/-- The command words of a program (R80, R81). -/
def assembleWords (ls : List (List Char)) : Except AsmError (List CmdWord) := do
  return (← assemble ls).map encode

end Sys2Proof.Machine
end

