-- ==== Sys2Proof/Safety.lean ====
section
/-! DEFINITION. What claims are stated in: the invariant of the block's state (10_state.md R34), the states a run
reaches, the fields of a response, and the cycle of a gradient's phases. -/

namespace Sys2Proof.Machine

/-! ### The invariant (10_state.md R27 to R34) -/

/-- What holds of an allocated slot: the legal values of R27, the lifecycle of R34 item 2, the durations of R28
and the delta table of R34 item 3. -/
structure Slot.Loaded (p : Params) (sl : Slot) : Prop where
  n_pos : 1 ≤ sl.n.toNat
  n_le : sl.n.toNat ≤ p.maxPoints
  w_pos : 1 ≤ sl.w.toNat
  w_le : sl.w.toNat ≤ p.numLeds
  count_le : sl.count.toNat ≤ sl.n.toNat
  life_eq : sl.life = if sl.count = sl.n then .ready else .filling
  dur_pos : ∀ i < sl.count.toNat, 1 ≤ (sl.point i).dur.toNat
  deltas : sl.life = .ready → ∀ i < sl.n.toNat, sl.segDelta i = segmentDelta p.arith sl i

/-- The invariant of the block's state: legal parameters (00_scope.md R5), arrays of their fixed sizes
(20_memory.md R49), `USED` and the slots' lifecycles (R30, R34), `ACTIVE` (R31, R34 item 4) and the reserved
bits of `FAULT` (R32). -/
structure State.Inv (s : State) : Prop where
  legal : s.params.Legal
  led_count : s.leds.length = s.params.numLeds
  slot_count : s.slots.length = s.params.maxGradients
  used_le : s.used.toNat ≤ s.params.maxGradients
  slot_arrays : ∀ i < s.params.maxGradients,
    (s.slot i).pt.length = s.params.maxPoints ∧ (s.slot i).delta.length = s.params.maxPoints
  slot_empty : ∀ i < s.params.maxGradients, ((s.slot i).life = .empty ↔ s.used.toNat ≤ i)
  slot_loaded : ∀ i < s.used.toNat, (s.slot i).Loaded s.params
  active_ready : s.active = activeNone ∨
    (s.active.toNat < s.used.toNat ∧ (s.slot s.active.toNat).life = .ready)
  fault_reserved : s.fault &&& 0xFC = 0

/-! ### Runs (70_reset_and_hazards.md R176, R186) -/

/-- The states a run of the instance `p` reaches: it starts in the reset state, the host may add an event at
any time, and the block takes steps. -/
inductive Reachable (p : Params) : State → Prop
  | reset : Reachable p (State.resetWith p)
  | present (s : State) (e : HostEvent) (h : Reachable p s) :
      Reachable p { s with hostIn := s.hostIn ++ [e] }
  | step (s t : State) (h : Reachable p s) (hs : Machine.step s = .next t) : Reachable p t

/-- Commands one after another, stopping at the first fault or refusal. -/
def runInstrs : List Instr → State → Host.Outcome State Fault Refusal
  | [], s => .next s
  | i :: is, s =>
    match exec i s with
    | .next t => runInstrs is t
    | .fault f => .fault f
    | .refused r => .refused r

/-- A safe step: it answers a next state and every response it adds has one of the status codes 0x00..0x07 of
60_exceptions.md R155. -/
def SafeStep (s : State) : Prop :=
  ∃ t, step s = .next t ∧ ∃ rs : List RspWord, t.hostOut = s.hostOut ++ rs ∧ rs.length ≤ 1 ∧
    ∀ r ∈ rs, (r.extractLsb' 24 8).toNat ≤ 7

/-! ### Fields of a response (30_encoding.md R66) -/

/-- `STATUS`, bits 31:24. -/
def rspStatus (r : RspWord) : U8 := r.extractLsb' 24 8

/-- `DATA`, bits 23:0. -/
def rspData (r : RspWord) : RspData := r.extractLsb' 0 24

/-! ### The cycle of phases of a gradient (42_step.md R127) -/

/-- The sum of the durations of the first `i` points. -/
def durationsBefore (sl : Slot) (i : Nat) : Nat :=
  ((List.range i).map fun j => (sl.point j).dur.toNat).sum

/-- `D`, the sum of the durations of the slot's `N` points (R127). -/
def cycleLength (sl : Slot) : Nat := durationsBefore sl sl.n.toNat

/-- The LED's phase is one of the slot's: `idx < N` and `sc < PT[idx].dur` (R127). -/
def PhaseInRange (sl : Slot) (l : Led) : Prop :=
  l.idx.toNat < sl.n.toNat ∧ l.sc.toNat < (sl.point l.idx.toNat).dur.toNat

/-- The place of a phase in the cycle: the steps from phase (0, 0) to it. -/
def cyclePosition (sl : Slot) (l : Led) : Nat := durationsBefore sl l.idx.toNat + l.sc.toNat

end Sys2Proof.Machine
end

