-- ==== Sys2Proof/Certificates/Slice0/Obligations.lean ====
section
/-! DEFINITION. The statements for the provers, each from the numbered rules of spec/. -/

open Sys2Proof Sys2Proof.Machine

/-! ### Encoding and decoding (30_encoding.md) -/

/-- Words written out from the spec's encoding tables decode to their commands (30_encoding.md section 7). -/
def Obligations.DecodeSpecWords : Prop :=
  decodeWord 0x0000000000000000 = .ok .nop ∧
  decodeWord 0x0100000400000002 = .ok (.addGradient 2 4) ∧
  decodeWord 0x02010000C8643203 = .ok (.appendCp 1 200 100 50 3) ∧
  decodeWord 0x0301000000000000 = .ok (.startGradient 1) ∧
  decodeWord 0x0400000000000000 = .ok .step ∧
  decodeWord 0x0500000302000000 = .ok (.readLed 3 2) ∧
  decodeWord 0x0600000300000000 = .ok (.readPhase 3) ∧
  decodeWord 0x0700000000000000 = .ok .readStatus ∧
  decodeWord 0x0400000000000001 = .error .mbzBit ∧
  decodeWord 0x0500000303000000 = .error .reservedChannel ∧
  decodeWord 0x0800000000000000 = .error .reservedOpcode

/-- Decoding the encoding of a command gives the command back, as a word and as transport bytes
(30_encoding.md R64, R65, R71 to R76; 20_memory.md R51). -/
def Obligations.DecodeEncodeRoundTrip : Prop :=
  ∀ i : Instr, i.wellFormed = true →
    decodeWord (encode i) = .ok i ∧ ∀ rest, decodeBytes (encodeBytes i ++ rest) = .ok (i, rest)

/-- A word that decodes is the one word of its command, and the command is well formed (R64, R65, R76). -/
def Obligations.EncodeDecodeRoundTrip : Prop :=
  ∀ (w : CmdWord) (i : Instr), decodeWord w = .ok i → encode i = w ∧ i.wellFormed = true

/-- R69: a word selects a command exactly when it agrees with the row's match under the row's mask, READ_LED
also needing `CH ≠ 3`. -/
def Obligations.DecodeSelectsByMatchAndMask : Prop :=
  let row : Op → CmdWord × CmdWord := fun
    | .nop => (0x0000000000000000, 0xFFFFFFFFFFFFFFFF)
    | .addGradient => (0x0100000000000000, 0xFFFF0000FFFFFF00)
    | .appendCp => (0x0200000000000000, 0xFF00FFFF00000000)
    | .startGradient => (0x0300000000000000, 0xFF00FFFFFFFFFFFF)
    | .step => (0x0400000000000000, 0xFFFFFFFFFFFFFFFF)
    | .readLed => (0x0500000000000000, 0xFFFF0000FCFFFFFF)
    | .readPhase => (0x0600000000000000, 0xFFFF0000FFFFFFFF)
    | .readStatus => (0x0700000000000000, 0xFFFFFFFFFFFFFFFF)
  ∀ (w : CmdWord) (op : Op),
    (∃ i, decodeWord w = .ok i ∧ i.op = op) ↔
      (w &&& (row op).2 = (row op).1 ∧ (op = .readLed → w.extractLsb' 24 2 ≠ 3#2))

/-- The words that decode to no command are those of R77, with the must-be-zero bits written as the bit ranges
of R65. -/
def Obligations.IllegalWordsByField : Prop :=
  ∀ w : CmdWord,
    let OP := (w.extractLsb' 56 8).toNat
    (∃ e, decodeWord w = .error e) ↔
      8 ≤ OP ∨
      ((OP = 0 ∨ OP = 4 ∨ OP = 7) ∧ w.extractLsb' 0 56 ≠ 0) ∨
      (OP = 1 ∧ (w.extractLsb' 48 8 ≠ 0 ∨ w.extractLsb' 8 24 ≠ 0)) ∨
      (OP = 2 ∧ w.extractLsb' 32 16 ≠ 0) ∨
      (OP = 3 ∧ w.extractLsb' 0 48 ≠ 0) ∨
      (OP = 5 ∧ (w.extractLsb' 48 8 ≠ 0 ∨ w.extractLsb' 26 6 ≠ 0 ∨ w.extractLsb' 0 24 ≠ 0)) ∨
      (OP = 6 ∧ (w.extractLsb' 48 8 ≠ 0 ∨ w.extractLsb' 0 32 ≠ 0)) ∨
      (OP = 5 ∧ w.extractLsb' 24 2 = 3#2)

/-- On a narrow transport byte `n` of a word carries its bits `8n+7:8n`, and the decoder reads the word its
bytes carry (R51). A string shorter than one word is no command: the model's choice, log entry 9. -/
def Obligations.TransportIsLittleEndian : Prop :=
  (∀ (w : CmdWord) (n : Nat), n < 8 → (cmdBytes w)[n]? = some (w.extractLsb' (8 * n) 8)) ∧
  (∀ (r : RspWord) (n : Nat), n < 4 → (rspBytes r)[n]? = some (r.extractLsb' (8 * n) 8)) ∧
  (∀ w : CmdWord, (cmdBytes w).length = 8) ∧ (∀ r : RspWord, (rspBytes r).length = 4) ∧
  (∀ (w : CmdWord) (rest : List U8),
    decodeBytes (cmdBytes w ++ rest) = (decodeWord w).map fun i => (i, rest)) ∧
  (∀ bs : List U8, bs.length < 8 → decodeBytes bs = .error .truncated)

/-! ### The transaction interface (30_encoding.md R63; 60_exceptions.md; 70_reset_and_hazards.md) -/

/-- A step with a command word at the head of the host's queue that decodes to `i` is `exec i` with that word
taken from the queue, and nothing else around it; and a step of `s` with a command word of the opcode table
presented next (`State.withFetchWord`) is `exec` of its command at `s`. That the host's pending words are a queue
of State, one taken by each step, and that `withFetchWord` stands for the host presenting one, is the model's
choice: log entry 2. -/
def Obligations.StepRunsDecodedCommand : Prop :=
  (∀ (s : State) (w : CmdWord) (rest : List HostEvent) (i : Instr),
    s.hostIn = .command w :: rest → decodeWord w = .ok i → step s = exec i { s with hostIn := rest }) ∧
  (∀ (s : State) (nbits w : Nat) (i : Instr),
    decodeTableWord nbits w = some i → step (s.withFetchWord nbits w) = exec i s)

/-- R78: an illegal word is accepted, answered IllegalCommand, sets `FAULT.ILLEGAL_CMD` and changes no other
state. -/
def Obligations.IllegalWordAnswered : Prop :=
  ∀ (s : State) (w : CmdWord) (rest : List HostEvent) (e : Reject),
    s.hostIn = .command w :: rest → decodeWord w = .error e →
    step s = .next { s with
      hostIn := rest, fault := s.fault ||| 0x02, hostOut := s.hostOut ++ [0x06000000] }

/-- R37: what every piece of state holds after a reset, between commands or during one. -/
def Obligations.ResetEventRestoresReset : Prop :=
  ∀ (s : State) (e : HostEvent) (rest : List HostEvent),
    (e = .reset ∨ ∃ w, e = .resetDuring w) → s.hostIn = e :: rest →
    ∃ t, step s = .next t ∧
      t.leds.length = s.params.numLeds ∧ t.slots.length = s.params.maxGradients ∧
      (∀ k < s.params.numLeds, t.led k = { r := 0, g := 0, b := 0, idx := 0, sc := 0 }) ∧
      (∀ i < s.params.maxGradients, (t.slot i).life = .empty ∧ (t.slot i).n = 0 ∧ (t.slot i).w = 0 ∧
        (t.slot i).count = 0) ∧
      t.used = 0 ∧ t.active = 0xFF ∧ t.fault = 0

/-- A reset sends no response, also for the command it abandons, whatever word was in flight, and keeps the
parameters (60_exceptions.md R162, 70_reset_and_hazards.md R175, 00_scope.md R5). That the responses already
transferred and the events still to come stay is the model's choice: log entry 3. That the control points and the
deltas, which `State.resetWith` gives as zero, hold zero after it is the model's choice too: log entry 4. -/
def Obligations.ResetSendsNoResponse : Prop :=
  ∀ (s : State) (e : HostEvent) (rest : List HostEvent),
    (e = .reset ∨ ∃ w, e = .resetDuring w) → s.hostIn = e :: rest →
    step s = .next { State.resetWith s.params with hostIn := rest, hostOut := s.hostOut }

/-- With nothing pending the block holds its whole state (60_exceptions.md R169). That an idle step is a step
is the model's choice: log entry 2. -/
def Obligations.IdleStepHoldsState : Prop :=
  ∀ s : State, s.hostIn = [] → step s = .next s

/-- Each accepted command word, legal or not, produces exactly one response, whose status is one of the eight
codes and whose data is 0 unless the status is OK (30_encoding.md R63, R66; 60_exceptions.md R155). -/
def Obligations.OneResponsePerCommand : Prop :=
  ∀ (s : State) (w : CmdWord) (rest : List HostEvent), s.hostIn = .command w :: rest →
    ∃ t r, step s = .next t ∧ t.hostIn = rest ∧ t.hostOut = s.hostOut ++ [r] ∧
      (rspStatus r).toNat ≤ 7 ∧ (rspStatus r ≠ 0 → rspData r = 0)

/-- No step of the block, in any state, ends in a fault or a refusal (60_exceptions.md R159,
93_implementation_defined.md section 3). -/
def Obligations.EveryStepIsSafe : Prop := ∀ s : State, SafeStep s

/-! ### What each command does -/

/-- R146: NOP responds {OK, 0} in every state and changes nothing else; its only word is 0. -/
def Obligations.NopResult : Prop :=
  (∀ s : State, exec .nop s = .next { s with hostOut := s.hostOut ++ [0x00000000] }) ∧
  (∀ w : CmdWord, decodeWord w = .ok .nop ↔ w = 0x0000000000000000)

/-- R144: READ_STATUS responds `{USED, ACTIVE, FAULT}` and changes nothing else. The reserved bits of FAULT read
as 0 (R32). Right after reset the response is 0x0000FF00. Its only word is 0x0700000000000000. -/
def Obligations.ReadStatusResult : Prop :=
  (∀ s : State, s.fault &&& 0xFC = 0 → exec .readStatus s =
    .next { s with hostOut := s.hostOut ++ [(0x00#8 ++ s.used ++ s.active ++ s.fault : RspWord)] }) ∧
  (∀ s : State, exec .readStatus s =
    .next { s with
      hostOut := s.hostOut ++ [(0x00#8 ++ s.used ++ s.active ++ (s.fault &&& 0x03) : RspWord)] }) ∧
  (∀ p : Params, exec .readStatus (State.resetWith p) =
    .next { State.resetWith p with hostOut := [0x0000FF00] }) ∧
  (∀ w : CmdWord, decodeWord w = .ok .readStatus ↔ w = 0x0700000000000000)

/-- R140: READ_LED responds IndexOutOfRange for an LED out of range, then NotReady with no slot active, and
otherwise the selected channel; it changes nothing else. Its word is format L's. Once a slot is active, no command
makes `ACTIVE` NONE again. -/
def Obligations.ReadLedResult : Prop :=
  (∀ (w : CmdWord) (k : U16) (ch : BitVec 2), decodeWord w = .ok (.readLed k ch) ↔
    ch ≠ 3 ∧ w = (0x05#8 ++ 0x00#8 ++ k ++ 0#6 ++ ch ++ 0#24 : CmdWord)) ∧
  (∀ (s t : State) (w : CmdWord) (rest : List HostEvent), s.hostIn = .command w :: rest → step s = .next t →
    s.active ≠ 0xFF → t.active ≠ 0xFF) ∧
  ∀ (s : State) (k : U16) (ch : BitVec 2), ch ≠ 3 →
    (s.params.numLeds ≤ k.toNat →
      exec (.readLed k ch) s = .next { s with hostOut := s.hostOut ++ [0x03000000] }) ∧
    (k.toNat < s.params.numLeds → s.active = 0xFF →
      exec (.readLed k ch) s = .next { s with hostOut := s.hostOut ++ [0x04000000] }) ∧
    (k.toNat < s.params.numLeds → s.active ≠ 0xFF →
      exec (.readLed k ch) s = .next { s with
        hostOut := s.hostOut ++ [(0x00#8 ++ 0x00#8 ++ 0x00#8 ++
          (if ch = 0 then (s.led k.toNat).r else if ch = 1 then (s.led k.toNat).g
           else (s.led k.toNat).b) : RspWord)] })

/-- R142: READ_PHASE responds IndexOutOfRange for an LED out of range, then NotReady with no slot active, and
otherwise `idx` and `sc` as stored; it changes nothing else. Its word is format Q's. -/
def Obligations.ReadPhaseResult : Prop :=
  (∀ (w : CmdWord) (k : U16), decodeWord w = .ok (.readPhase k) ↔
    w = (0x06#8 ++ 0x00#8 ++ k ++ 0#32 : CmdWord)) ∧
  ∀ (s : State) (k : U16),
    (s.params.numLeds ≤ k.toNat →
      exec (.readPhase k) s = .next { s with hostOut := s.hostOut ++ [0x03000000] }) ∧
    (k.toNat < s.params.numLeds → s.active = 0xFF →
      exec (.readPhase k) s = .next { s with hostOut := s.hostOut ++ [0x04000000] }) ∧
    (k.toNat < s.params.numLeds → s.active ≠ 0xFF →
      exec (.readPhase k) s = .next { s with
        hostOut := s.hostOut ++
          [(0x00#8 ++ 0x00#8 ++ (s.led k.toNat).idx ++ (s.led k.toNat).sc : RspWord)] })

/-- R86: ADD_GRADIENT responds InvalidConfig for `N` or `W` out of range, then CapacityExceeded when every slot
is allocated, changing nothing else. Otherwise slot USED becomes FILLING with `N`, `W` and an append cursor of
0, its points and deltas kept; USED goes up by one; the response carries the slot's index; nothing else changes.
Its word is format G's. -/
def Obligations.AddGradientResult : Prop :=
  (∀ (w : CmdWord) (n : U8) (wd : U16), decodeWord w = .ok (.addGradient n wd) ↔
    w = (0x01#8 ++ 0x00#8 ++ wd ++ 0#24 ++ n : CmdWord)) ∧
  (∀ (s : State) (n : U8) (w : U16),
    (n.toNat = 0 ∨ s.params.maxPoints < n.toNat ∨ w.toNat = 0 ∨ s.params.numLeds < w.toNat) →
    exec (.addGradient n w) s = .next { s with hostOut := s.hostOut ++ [0x05000000] }) ∧
  (∀ (s : State) (n : U8) (w : U16),
    1 ≤ n.toNat → n.toNat ≤ s.params.maxPoints → 1 ≤ w.toNat → w.toNat ≤ s.params.numLeds →
    s.used.toNat = s.params.maxGradients →
    exec (.addGradient n w) s = .next { s with hostOut := s.hostOut ++ [0x01000000] }) ∧
  (∀ (s : State) (n : U8) (w : U16), s.Inv →
    1 ≤ n.toNat → n.toNat ≤ s.params.maxPoints → 1 ≤ w.toNat → w.toNat ≤ s.params.numLeds →
    s.used.toNat ≠ s.params.maxGradients →
    ∃ t, exec (.addGradient n w) s = .next t ∧
      t = { s with slots := t.slots, used := t.used,
                   hostOut := s.hostOut ++ [(0x00#8 ++ 0#16 ++ s.used : RspWord)] } ∧
      t.slots.length = s.slots.length ∧
      t.used.toNat = s.used.toNat + 1 ∧
      t.slot s.used.toNat = { s.slot s.used.toNat with life := .filling, n := n, w := w, count := 0 } ∧
      ∀ j, j ≠ s.used.toNat → t.slot j = s.slot j)

/-- APPEND_CP: IndexOutOfRange for a slot not allocated (R89), then CapacityExceeded for a slot that holds its
`N` points, then InvalidDuration for `dur = 0`; nothing else changes (R90, R157). -/
def Obligations.AppendErrors : Prop :=
  ∀ (s : State) (sl r g b dur : U8),
    (s.used.toNat ≤ sl.toNat →
      exec (.appendCp sl r g b dur) s = .next { s with hostOut := s.hostOut ++ [0x03000000] }) ∧
    (sl.toNat < s.used.toNat → (s.slot sl.toNat).count = (s.slot sl.toNat).n →
      exec (.appendCp sl r g b dur) s = .next { s with hostOut := s.hostOut ++ [0x01000000] }) ∧
    (sl.toNat < s.used.toNat → (s.slot sl.toNat).count ≠ (s.slot sl.toNat).n → dur = 0 →
      exec (.appendCp sl r g b dur) s = .next { s with hostOut := s.hostOut ++ [0x02000000] })

/-- APPEND_CP of a point that is not the slot's last: the point is stored at the append cursor, the cursor goes
up by one, and no LED, no other slot and no register changes (R88, R92). -/
def Obligations.AppendStoresPoint : Prop :=
  ∀ (s : State) (sl r g b dur : U8), s.Inv → sl.toNat < s.used.toNat →
    (s.slot sl.toNat).count.toNat + 1 < (s.slot sl.toNat).n.toNat → dur ≠ 0 →
    ∃ t, exec (.appendCp sl r g b dur) s = .next t ∧
      t = { s with slots := t.slots, hostOut := s.hostOut ++ [0x00000000] } ∧
      (t.slot sl.toNat).point (s.slot sl.toNat).count.toNat = { r := r, g := g, b := b, dur := dur } ∧
      (t.slot sl.toNat).count.toNat = (s.slot sl.toNat).count.toNat + 1 ∧
      t.slot sl.toNat = { s.slot sl.toNat with
        pt := (t.slot sl.toNat).pt, count := (t.slot sl.toNat).count } ∧
      (∀ i, i ≠ (s.slot sl.toNat).count.toNat →
        (t.slot sl.toNat).point i = (s.slot sl.toNat).point i) ∧
      (∀ j, j ≠ sl.toNat → t.slot j = s.slot j)

/-- The APPEND_CP that stores a slot's Nth point makes the slot READY, computes its delta table, makes it active
and places LEDs `0 .. numWaves·L - 1`, leaving the trailing LEDs, the other slots, USED and FAULT as they were
(R88, R91; 41_activation.md R101, R104, R108). -/
def Obligations.AppendCompletesSlot : Prop :=
  ∀ (s : State) (sl r g b dur : U8), s.Inv → sl.toNat < s.used.toNat →
    (s.slot sl.toNat).count.toNat + 1 = (s.slot sl.toNat).n.toNat → dur ≠ 0 →
    ∃ t, exec (.appendCp sl r g b dur) s = .next t ∧
      t = { s with leds := t.leds, slots := t.slots, active := sl,
                   hostOut := s.hostOut ++ [0x00000000] } ∧
      (t.slot sl.toNat).life = .ready ∧
      (t.slot sl.toNat).count = (s.slot sl.toNat).n ∧
      (t.slot sl.toNat).n = (s.slot sl.toNat).n ∧ (t.slot sl.toNat).w = (s.slot sl.toNat).w ∧
      (t.slot sl.toNat).point (s.slot sl.toNat).count.toNat = { r := r, g := g, b := b, dur := dur } ∧
      (∀ i, i ≠ (s.slot sl.toNat).count.toNat →
        (t.slot sl.toNat).point i = (s.slot sl.toNat).point i) ∧
      (∀ i < (s.slot sl.toNat).n.toNat,
        (t.slot sl.toNat).segDelta i = segmentDelta s.params.arith (t.slot sl.toNat) i) ∧
      (∀ i, (s.slot sl.toNat).n.toNat ≤ i →
        (t.slot sl.toNat).segDelta i = (s.slot sl.toNat).segDelta i) ∧
      t.leds.length = s.leds.length ∧
      (∀ k < s.params.numLeds, t.led k =
        if k < placedLeds s.params (t.slot sl.toNat) then
          placeLed s.params.arith (t.slot sl.toNat) (ledsPerWave s.params (t.slot sl.toNat))
            (k % ledsPerWave s.params (t.slot sl.toNat))
        else s.led k) ∧
      (∀ j, j ≠ sl.toNat → t.slot j = s.slot j)

/-- R110: START_GRADIENT responds IndexOutOfRange for a slot not allocated, then NotReady for one that
is not READY, changing nothing else. Otherwise it places LEDs `0 .. numWaves·L - 1`, makes the slot active and
changes nothing else. Its word is format S's. -/
def Obligations.StartGradientResult : Prop :=
  (∀ (w : CmdWord) (sl : U8), decodeWord w = .ok (.startGradient sl) ↔
    w = (0x03#8 ++ sl ++ 0#48 : CmdWord)) ∧
  (∀ (s : State) (sl : U8), s.used.toNat ≤ sl.toNat →
    exec (.startGradient sl) s = .next { s with hostOut := s.hostOut ++ [0x03000000] }) ∧
  (∀ (s : State) (sl : U8), sl.toNat < s.used.toNat → (s.slot sl.toNat).life ≠ .ready →
    exec (.startGradient sl) s = .next { s with hostOut := s.hostOut ++ [0x04000000] }) ∧
  (∀ (s : State) (sl : U8), s.Inv → sl.toNat < s.used.toNat → (s.slot sl.toNat).life = .ready →
    ∃ t, exec (.startGradient sl) s = .next t ∧
      t = { s with leds := t.leds, active := sl, hostOut := s.hostOut ++ [0x00000000] } ∧
      t.leds.length = s.leds.length ∧
      let numWaves := s.params.numLeds / (s.slot sl.toNat).w.toNat
      let L := s.params.numLeds / numWaves
      ∀ k < s.params.numLeds, t.led k =
        if k < numWaves * L then placeLed s.params.arith (s.slot sl.toNat) L (k % L) else s.led k)

/-- STEP (42_step.md R120 to R124): NotReady with no active slot; StalePhase, with its FAULT bit and no LED
changed, if some LED's `idx` is at or above the active slot's `N`; otherwise every LED takes its candidate color
and `sc + 1`, or at a segment boundary moves to segment `(idx + 1) mod N` with `sc` 0 and that point's color.
Nothing else changes. Its only word is 0x0400000000000000. -/
def Obligations.StepResult : Prop :=
  (∀ w : CmdWord, decodeWord w = .ok .step ↔ w = 0x0400000000000000) ∧
  (∀ s : State, s.active = 0xFF →
    exec .step s = .next { s with hostOut := s.hostOut ++ [0x04000000] }) ∧
  (∀ s : State, s.Inv → s.active ≠ 0xFF →
    (∃ k < s.params.numLeds, (s.slot s.active.toNat).n.toNat ≤ (s.led k).idx.toNat) →
    exec .step s = .next { s with
      fault := s.fault ||| 0x01, hostOut := s.hostOut ++ [0x07000000] }) ∧
  (∀ s : State, s.Inv → s.active ≠ 0xFF →
    (∀ k < s.params.numLeds, (s.led k).idx.toNat < (s.slot s.active.toNat).n.toNat) →
    ∃ t, exec .step s = .next t ∧
      t = { s with leds := t.leds, hostOut := s.hostOut ++ [0x00000000] } ∧
      t.leds.length = s.leds.length ∧
      ∀ k < s.params.numLeds,
        let a := s.params.arith
        let sl := s.slot s.active.toNat
        let l := s.led k
        let i := l.idx.toNat
        let ni := (i + 1) % sl.n.toNat
        let c := fun (x : U8) (d : D) => BitVec.ofInt 8 (roundD (clampD (addD a (toD a x.toNat) d)))
        if (l.sc.toNat : Int) ≥ ((sl.point i).dur.toNat : Int) - 1 then
          t.led k = { r := (sl.point ni).r, g := (sl.point ni).g, b := (sl.point ni).b,
                      idx := BitVec.ofNat 8 ni, sc := 0 }
        else
          t.led k = { r := c l.r (sl.segDelta i).dr, g := c l.g (sl.segDelta i).dg,
                      b := c l.b (sl.segDelta i).db, idx := l.idx, sc := l.sc + 1 })

/-! ### Errors, write sets and registers -/

/-- R158: a command, legal or not, that ends with an error code changes no state but the FAULT bit of StalePhase
or IllegalCommand; the data of its response is 0 (R66). -/
def Obligations.ErrorsChangeOnlyFaultBits : Prop :=
  ∀ (s : State) (w : CmdWord) (rest : List HostEvent), s.hostIn = .command w :: rest →
    ∃ t r, step s = .next t ∧ t.hostOut = s.hostOut ++ [r] ∧
      (rspStatus r ≠ 0 → rspData r = 0 ∧
        t = { s with
          hostIn := rest
          hostOut := s.hostOut ++ [r]
          fault := s.fault ||| (if rspStatus r = 0x07 then 0x01 else if rspStatus r = 0x06 then 0x02 else 0) })

/-- R156: the error codes each command can return, no fewer and no more; an illegal word returns
IllegalCommand. -/
def Obligations.ErrorCodesPerCommand : Prop :=
  let codes : Op → List U8 := fun
    | .nop => []
    | .addGradient => [0x05, 0x01]
    | .appendCp => [0x03, 0x01, 0x02]
    | .startGradient => [0x03, 0x04]
    | .step => [0x04, 0x07]
    | .readLed => [0x03, 0x04]
    | .readPhase => [0x03, 0x04]
    | .readStatus => []
  (∀ (op : Op) (c : U8), c ≠ 0 →
    ((∃ i s t r, i.op = op ∧ i.wellFormed = true ∧ exec i s = .next t ∧ t.hostOut = s.hostOut ++ [r] ∧
      rspStatus r = c) ↔ c ∈ codes op)) ∧
  (∀ (s t : State) (w : CmdWord) (rest : List HostEvent) (e : Reject),
    s.hostIn = .command w :: rest → decodeWord w = .error e → step s = .next t →
    ∃ r, t.hostOut = s.hostOut ++ [r] ∧ rspStatus r = 0x06)

/-- What each command may write (10_state.md R36, 20_memory.md R53): the LED memory only APPEND_CP,
START_GRADIENT and STEP; slots only ADD_GRADIENT (slot USED, not its points or deltas) and APPEND_CP (its own
slot, not its `N` or `W`); USED only ADD_GRADIENT; ACTIVE only APPEND_CP and START_GRADIENT; FAULT only STEP;
the parameters none. -/
def Obligations.WriteSetsPerCommand : Prop :=
  ∀ (i : Instr) (s t : State), i.wellFormed = true → exec i s = .next t →
    t.params = s.params ∧ t.hostIn = s.hostIn ∧ (∃ r, t.hostOut = s.hostOut ++ [r]) ∧
    (i.op ≠ .appendCp → i.op ≠ .startGradient → i.op ≠ .step → t.leds = s.leds) ∧
    (i.op ≠ .addGradient → i.op ≠ .appendCp → t.slots = s.slots) ∧
    (i.op ≠ .addGradient → t.used = s.used) ∧
    (i.op ≠ .appendCp → i.op ≠ .startGradient → t.active = s.active) ∧
    (i.op ≠ .step → t.fault = s.fault) ∧
    (∀ n w, i = .addGradient n w →
      (∀ j, j ≠ s.used.toNat → t.slot j = s.slot j) ∧
      (t.slot s.used.toNat).pt = (s.slot s.used.toNat).pt ∧
      (t.slot s.used.toNat).delta = (s.slot s.used.toNat).delta) ∧
    (∀ sl r g b d, i = .appendCp sl r g b d →
      (∀ j, j ≠ sl.toNat → t.slot j = s.slot j) ∧
      (t.slot sl.toNat).n = (s.slot sl.toNat).n ∧ (t.slot sl.toNat).w = (s.slot sl.toNat).w)

/-- R32: FAULT bit 0 is set by a STEP that ends with StalePhase, bit 1 by a word that decodes as no command;
bits 7:2 are never set and read as 0; only a reset clears a bit; READ_STATUS reads FAULT without changing it. -/
def Obligations.FaultRegisterSticky : Prop :=
  (∀ (s t : State) (w : CmdWord) (rest : List HostEvent),
    s.hostIn = .command w :: rest → step s = .next t →
    ∃ r, t.hostOut = s.hostOut ++ [r] ∧
      t.fault = s.fault |||
        (if rspStatus r = 0x07 then 0x01 else if rspStatus r = 0x06 then 0x02 else 0) ∧
      t.fault &&& 0xFC = s.fault &&& 0xFC ∧ t.fault &&& s.fault = s.fault ∧
      (rspStatus r = 0x07 → decodeWord w = .ok .step) ∧
      (rspStatus r = 0x06 ↔ ∃ e, decodeWord w = .error e)) ∧
  (∀ (s t : State) (e : HostEvent) (rest : List HostEvent),
    (e = .reset ∨ ∃ w, e = .resetDuring w) → s.hostIn = e :: rest → step s = .next t → t.fault = 0) ∧
  (∀ s : State, ∃ t r, exec .readStatus s = .next t ∧ t.fault = s.fault ∧ t.hostOut = s.hostOut ++ [r] ∧
    r.extractLsb' 0 8 = s.fault &&& 0x03)

/-- ACTIVE changes only when a slot is activated, by an APPEND_CP or a START_GRADIENT of it, and the slot is
then READY; or by a reset (10_state.md R31). -/
def Obligations.ActiveChangesOnlyByActivation : Prop :=
  ∀ s t : State, s.Inv → step s = .next t →
    t.active = s.active ∨
    (∃ e rest, s.hostIn = e :: rest ∧ (e = .reset ∨ ∃ w, e = .resetDuring w) ∧ t.active = 0xFF) ∨
    (∃ w rest i sl, s.hostIn = .command w :: rest ∧ decodeWord w = .ok i ∧
      (i = .startGradient sl ∨ ∃ r g b d, i = .appendCp sl r g b d) ∧
      t.active = sl ∧ sl.toNat < t.used.toNat ∧ (t.slot sl.toNat).life = .ready)

/-- A READY slot, its points and its deltas do not change until reset (20_memory.md R60, 10_state.md R33). -/
def Obligations.ReadySlotNeverChanges : Prop :=
  ∀ (s t : State) (w : CmdWord) (rest : List HostEvent) (j : Nat), s.Inv →
    s.hostIn = .command w :: rest → step s = .next t → j < s.params.maxGradients →
    (s.slot j).life = .ready → t.slot j = s.slot j

/-- R33: the lifecycle of a slot. No transition exists but EMPTY to FILLING by ADD_GRADIENT with a cursor of 0,
FILLING to READY by the APPEND_CP of the Nth point, which computes the deltas and activates the slot, and any
state to EMPTY by reset; and those happen. -/
def Obligations.SlotLifecycle : Prop :=
  (∀ (s t : State) (j : Nat), s.Inv → step s = .next t → j < s.params.maxGradients →
    (t.slot j).life = (s.slot j).life ∨
    (∃ e rest, s.hostIn = e :: rest ∧ (e = .reset ∨ ∃ w, e = .resetDuring w) ∧ (t.slot j).life = .empty) ∨
    (∃ w rest n v, s.hostIn = .command w :: rest ∧ decodeWord w = .ok (.addGradient n v) ∧
      j = s.used.toNat ∧ (s.slot j).life = .empty ∧ (t.slot j).life = .filling ∧ (t.slot j).count = 0) ∨
    (∃ w rest sl r g b d, s.hostIn = .command w :: rest ∧ decodeWord w = .ok (.appendCp sl r g b d) ∧
      j = sl.toNat ∧ (s.slot j).life = .filling ∧ (t.slot j).life = .ready ∧
      (s.slot j).count.toNat + 1 = (s.slot j).n.toNat)) ∧
  (∀ (s t : State) (sl r g b d : U8), s.Inv → exec (.appendCp sl r g b d) s = .next t → d ≠ 0 →
    (s.slot sl.toNat).life = .filling →
    (t.slot sl.toNat).life =
      (if (s.slot sl.toNat).count.toNat + 1 = (s.slot sl.toNat).n.toNat then .ready else .filling) ∧
    ((t.slot sl.toNat).life = .ready → t.active = sl ∧ ∀ i < (s.slot sl.toNat).n.toNat,
      (t.slot sl.toNat).segDelta i = segmentDelta s.params.arith (t.slot sl.toNat) i)) ∧
  (∀ (s t : State) (sl r g b d : U8), s.Inv → exec (.appendCp sl r g b d) s = .next t →
    (s.slot sl.toNat).life = .ready → t.hostOut = s.hostOut ++ [0x01000000]) ∧
  (∀ (s t : State) (n : U8) (w : U16), s.Inv → exec (.addGradient n w) s = .next t → t.used ≠ s.used →
    (s.slot s.used.toNat).life = .empty ∧ (t.slot s.used.toNat).life = .filling ∧
      (t.slot s.used.toNat).count = 0) ∧
  (∀ (s t : State) (e : HostEvent) (rest : List HostEvent) (j : Nat),
    (e = .reset ∨ ∃ w, e = .resetDuring w) → s.hostIn = e :: rest → step s = .next t →
    (t.slot j).life = .empty)

/-! ### Activation (41_activation.md) -/

/-- R101: the delta of a segment is the channel difference over the duration of its starting point, an exact
rational under EXACT and rounded once under BINARY32; its magnitude is at most 255; equal points, and the one
point of an `N = 1` slot, give 0; COMPUTE_DELTAS writes it for every segment, the wrap segment included. -/
def Obligations.DeltaIsDifferenceOverDuration : Prop :=
  (∀ (a : Arith) (cur next dur : U8), dur ≠ 0 →
    deltaChannel a cur next dur = fitD a (((next.toNat : Rat) - cur.toNat) / dur.toNat) ∧
    |deltaChannel a cur next dur| ≤ 255 ∧
    (cur = next → deltaChannel a cur next dur = 0)) ∧
  (∀ a : Arith, deltaChannel a 0 255 1 = 255 ∧ deltaChannel a 255 0 1 = -255) ∧
  (∀ (a : Arith) (sl : Slot) (i : Nat), i < sl.n.toNat → i < sl.delta.length →
    (computeDeltas a sl).segDelta i =
      { dr := deltaChannel a (sl.point i).r (sl.point ((i + 1) % sl.n.toNat)).r (sl.point i).dur
        dg := deltaChannel a (sl.point i).g (sl.point ((i + 1) % sl.n.toNat)).g (sl.point i).dur
        db := deltaChannel a (sl.point i).b (sl.point ((i + 1) % sl.n.toNat)).b (sl.point i).dur } ∧
    (sl.n = 1 → (sl.point i).dur ≠ 0 → (computeDeltas a sl).segDelta i = { dr := 0, dg := 0, db := 0 }))

/-- R103: `numWaves` and `L` by integer division, `L ≥ W`, the wave blocks of `L` consecutive LEDs; and the
number of trailing LEDs of R104. -/
def Obligations.BlockGeometry : Prop :=
  ∀ (p : Params) (sl : Slot), 1 ≤ sl.w.toNat → sl.w.toNat ≤ p.numLeds →
    let W := sl.w.toNat
    let L := p.numLeds / (p.numLeds / W)
    numWaves p sl = p.numLeds / W ∧ 1 ≤ numWaves p sl ∧
    ledsPerWave p sl = L ∧ W ≤ L ∧
    placedLeds p sl = p.numLeds / W * L ∧ placedLeds p sl ≤ p.numLeds ∧
    p.numLeds - placedLeds p sl = p.numLeds % numWaves p sl ∧
    p.numLeds - placedLeds p sl < numWaves p sl ∧
    (∀ k, k < placedLeds p sl ↔ ∃ b j, b < numWaves p sl ∧ j < L ∧ k = b * L + j ∧ j = k % L) ∧
    (W ∣ p.numLeds → L = W ∧ placedLeds p sl = p.numLeds)

/-- Placement does not write the trailing LEDs: whatever a START_GRADIENT or an APPEND_CP answers, every LED at
or past `numWaves·L` keeps its color and phase (41_activation.md R104, 20_memory.md R62). -/
def Obligations.TrailingLedsKept : Prop :=
  ∀ (i : Instr) (s t : State) (sl : U8),
    (i = .startGradient sl ∨ ∃ r g b d, i = .appendCp sl r g b d) → exec i s = .next t →
    ∀ k, placedLeds s.params (t.slot sl.toNat) ≤ k → t.led k = s.led k

/-- The closed form of a placement under EXACT (R107): with `m = j·N`, `i = m div L`, `r = m mod L`, the segment
is `i`, the step count `(r·dur) div L`, and each channel `P + FLOOR((2·r·diff + L) / (2·L))`. -/
def Obligations.ExactPlacementClosedForm : Prop :=
  ∀ (p : Params) (sl : Slot) (L j : Nat), p.Legal → p.arith = .exact → sl.Loaded p → sl.life = .ready →
    j < L →
    let N := sl.n.toNat
    let i := j * N / L
    let r := j * N % L
    let P := sl.point i
    let Q := sl.point ((i + 1) % N)
    let v := fun (x y : U8) =>
      (x.toNat : Int) + (2 * (r : Int) * ((y.toNat : Int) - (x.toNat : Int)) + (L : Int)) / (2 * (L : Int))
    let l := placeLed .exact sl L j
    l.idx.toNat = i ∧ l.sc.toNat = r * P.dur.toNat / L ∧
    (l.r.toNat : Int) = v P.r Q.r ∧ (l.g.toNat : Int) = v P.g Q.g ∧ (l.b.toNat : Int) = v P.b Q.b

/-- The placed phase is in range in both arithmetics: `idx < N` and `sc < dur` (R106, R34 item 5). -/
def Obligations.PlacedPhaseInRange : Prop :=
  ∀ (p : Params) (sl : Slot) (L j : Nat), p.Legal → sl.Loaded p → sl.life = .ready →
    j < L → L ≤ 65535 → PhaseInRange sl (placeLed p.arith sl L j)

/-- In both arithmetics `pointIdx` is the exact `(j·N) div L`, and `subPoint` is taken without rounding (R105
items 2 and 3). -/
def Obligations.PointIndexExactInBothArithmetics : Prop :=
  ∀ (a : Arith) (sl : Slot) (L j : Nat), j < L → L ≤ 65535 →
    pointIdx a sl L j = j * sl.n.toNat / L ∧
    subPoint a sl L j = pointPos a sl L j - (pointIdx a sl L j : Rat)

/-- Offset 0 of every wave block gets segment 0, step count 0 and the exact color of point 0, in both
arithmetics (R109 item 3). -/
def Obligations.BlockStartsAtPointZero : Prop :=
  ∀ (a : Arith) (sl : Slot) (L : Nat),
    placeLed a sl L 0 =
      { r := (sl.point 0).r, g := (sl.point 0).g, b := (sl.point 0).b, idx := 0, sc := 0 }

/-- START_GRADIENT repeated leaves the state as the first one left it, but for the second response, and gives
every wave block the same colors and phases (20_memory.md R55, 41_activation.md R109). -/
def Obligations.StartGradientIdempotent : Prop :=
  ∀ (s : State) (sl : U8), s.Inv → sl.toNat < s.used.toNat → (s.slot sl.toNat).life = .ready →
    ∃ t, exec (.startGradient sl) s = .next t ∧
      exec (.startGradient sl) t = .next { t with hostOut := t.hostOut ++ [0x00000000] } ∧
      ∀ k, k + ledsPerWave s.params (s.slot sl.toNat) < placedLeds s.params (s.slot sl.toNat) →
        t.led (k + ledsPerWave s.params (s.slot sl.toNat)) = t.led k

/-- Every placed channel lies on the line between its bracketing control points, within 1/2 under EXACT and
within 1 under BINARY32 (R109 item 1). -/
def Obligations.PlacementWithinOneOfLine : Prop :=
  ∀ (p : Params) (sl : Slot) (L j : Nat), p.Legal → sl.Loaded p → sl.life = .ready →
    j < L → L ≤ 65535 →
    let N := sl.n.toNat
    let i := j * N / L
    let P := sl.point i
    let Q := sl.point ((i + 1) % N)
    let line := fun (x y : U8) =>
      (x.toNat : Rat) + ((j * N % L : Nat) : Rat) / L * ((y.toNat : Rat) - x.toNat)
    let bound : Rat := match p.arith with
      | .exact => 1 / 2
      | .binary32 => 1
    let l := placeLed p.arith sl L j
    |(l.r.toNat : Rat) - line P.r Q.r| ≤ bound ∧ |(l.g.toNat : Rat) - line P.g Q.g| ≤ bound ∧
    |(l.b.toNat : Rat) - line P.b Q.b| ≤ bound

/-! ### Arithmetic (00_scope.md R12 to R16) -/

/-- CLAMP and ROUND commute (R16). -/
def Obligations.ClampRoundCommute : Prop :=
  ∀ x : D, roundD (clampD x) = max 0 (min 255 (roundD x)) ∧
    ((colorU8 x).toNat : Int) = max 0 (min 255 (roundD x))

/-- Every finite binary32 value is a fixed point of rounding, and every datum but negative zero is recovered
from its value (R12). -/
def Obligations.Binary32DatumRoundTrip : Prop :=
  ∀ v : BitVec 32, v.extractLsb' 23 8 ≠ 0xFF#8 →
    nearest32 (value32 v) = value32 v ∧ (v ≠ 0x80000000 → bits32 (value32 v) = v)

/-- Rounding to binary32 gives a finite binary32 value, none is nearer, and of two equally near it is the even
one (R12). -/
def Obligations.Nearest32IsNearestEven : Prop :=
  ∀ x : Rat, |x| ≤ ((2 ^ 24 - 1 : Nat) : Rat) * ((2 ^ 104 : Nat) : Rat) →
    ∃ v : BitVec 32, v.extractLsb' 23 8 ≠ 0xFF#8 ∧ value32 v = nearest32 x ∧
      ∀ u : BitVec 32, u.extractLsb' 23 8 ≠ 0xFF#8 →
        |nearest32 x - x| ≤ |value32 u - x| ∧
        (|nearest32 x - x| = |value32 u - x| → value32 u ≠ nearest32 x → v.getLsbD 0 = false)

/-! ### STEP over many steps (42_step.md) -/

/-- Under EXACT every STEP adds the one integer `ROUND(diff / dur)` to a channel and saturates (R126). -/
def Obligations.IntegerDeltaLawExact : Prop :=
  ∀ c cur next dur : U8, dur ≠ 0 →
    ((stepChannel .exact c (deltaChannel .exact cur next dur)).toNat : Int) =
      max 0 (min 255 ((c.toNat : Int) + ⌊((next.toNat : Rat) - cur.toNat) / dur.toNat + 1 / 2⌋))

/-- Under BINARY32 too: the candidate color is the one of exact rationals (R126). -/
def Obligations.IntegerDeltaLawBinary32 : Prop :=
  ∀ c cur next dur : U8, dur ≠ 0 →
    ((stepChannel .binary32 c (deltaChannel .binary32 cur next dur)).toNat : Int) =
      max 0 (min 255 ((c.toNat : Int) + ⌊((next.toNat : Rat) - cur.toNat) / dur.toNat + 1 / 2⌋))

/-- A segment with `|diff| < dur / 2` does not move its channel until the snap, in both arithmetics; one with
`|diff| ≥ dur / 2` moves every channel value that is not held by saturation, but for the tie `diff = -dur / 2`
(R126; 70_reset_and_hazards.md R183). -/
def Obligations.SlowSegmentHoldsColor : Prop :=
  ∀ (a : Arith) (c cur next dur : U8), dur ≠ 0 →
    let diff := (next.toNat : Int) - (cur.toNat : Int)
    (2 * |diff| < (dur.toNat : Int) → stepChannel a c (deltaChannel a cur next dur) = c) ∧
    ((dur.toNat : Int) ≤ 2 * diff → c ≠ 255 → c.toNat < (stepChannel a c (deltaChannel a cur next dur)).toNat) ∧
    (2 * diff < -(dur.toNat : Int) → c ≠ 0 → (stepChannel a c (deltaChannel a cur next dur)).toNat < c.toNat)

/-- STEP moves a phase one place on in the slot's one cycle of `D` phases, different phases have different
places, and a phase whose step count is out of range joins the cycle at the next segment's start (R127). -/
def Obligations.StepIsOneCycleStep : Prop :=
  ∀ (a : Arith) (sl : Slot), (∀ i < sl.n.toNat, 1 ≤ (sl.point i).dur.toNat) →
    (∀ l, PhaseInRange sl l → PhaseInRange sl (stepLed a sl l) ∧
      cyclePosition sl l < cycleLength sl ∧
      cyclePosition sl (stepLed a sl l) = (cyclePosition sl l + 1) % cycleLength sl) ∧
    (∀ l m, PhaseInRange sl l → PhaseInRange sl m → cyclePosition sl l = cyclePosition sl m →
      l.idx = m.idx ∧ l.sc = m.sc) ∧
    (∀ l, l.idx.toNat < sl.n.toNat → (sl.point l.idx.toNat).dur.toNat ≤ l.sc.toNat →
      (stepLed a sl l).idx.toNat = (l.idx.toNat + 1) % sl.n.toNat ∧ (stepLed a sl l).sc = 0)

/-- `D` STEPs return every LED in range to its phase, and every LED at a segment's start to its control point's
color (R129). -/
def Obligations.FullCycleReturnsStrip : Prop :=
  ∀ s : State, s.Inv → s.active ≠ 0xFF →
    (∀ k < s.params.numLeds, PhaseInRange (s.slot s.active.toNat) (s.led k)) →
    ∃ t, runInstrs (List.replicate (cycleLength (s.slot s.active.toNat)) .step) s = .next t ∧
      ∀ k < s.params.numLeds, (t.led k).idx = (s.led k).idx ∧ (t.led k).sc = (s.led k).sc ∧
        ((s.led k).sc = 0 →
          (t.led k).r = ((s.slot s.active.toNat).point (s.led k).idx.toNat).r ∧
          (t.led k).g = ((s.slot s.active.toNat).point (s.led k).idx.toNat).g ∧
          (t.led k).b = ((s.slot s.active.toNat).point (s.led k).idx.toNat).b)

/-- From a snap on, under EXACT, an LED's color is a function of its phase: `CLAMP(PT[i] + t·ROUND(DELTA[i]))` at
phase `(i, t)`, and the step out of the segment snaps to the next point (R129, R124). -/
def Obligations.ColorIsFunctionOfPhase : Prop :=
  ∀ (p : Params) (sl : Slot) (i t : Nat), p.Legal → p.arith = .exact → sl.Loaded p → sl.life = .ready →
    i < sl.n.toNat → t < (sl.point i).dur.toNat →
    let start := fun (m : Nat) =>
      ({ r := (sl.point m).r, g := (sl.point m).g, b := (sl.point m).b, idx := BitVec.ofNat 8 m, sc := 0 } : Led)
    let c := fun (x : U8) (d : D) =>
      BitVec.ofInt 8 (max 0 (min 255 ((x.toNat : Int) + (t : Int) * roundD d)))
    let l := (stepLed .exact sl)^[t] (start i)
    l = { r := c (sl.point i).r (sl.segDelta i).dr, g := c (sl.point i).g (sl.segDelta i).dg,
          b := c (sl.point i).b (sl.segDelta i).db, idx := BitVec.ofNat 8 i, sc := BitVec.ofNat 8 t } ∧
    (t + 1 = (sl.point i).dur.toNat → stepLed .exact sl l = start ((i + 1) % sl.n.toNat))

/-- A one-point gradient keeps its point's color and segment 0, while the step count runs through 0..dur-1, in
both arithmetics (R130). -/
def Obligations.OnePointGradientConstant : Prop :=
  ∀ (p : Params) (sl : Slot) (l : Led), p.Legal → sl.Loaded p → sl.life = .ready → sl.n = 1 →
    l.idx = 0 → l.r = (sl.point 0).r → l.g = (sl.point 0).g → l.b = (sl.point 0).b →
    stepLed p.arith sl l =
      { l with sc := if (sl.point 0).dur.toNat ≤ l.sc.toNat + 1 then 0 else l.sc + 1 }

/-! ### Invariants and runs -/

/-- The invariant holds after reset, of every legal instance (R34, R37). -/
def Obligations.InvHoldsAtReset : Prop :=
  (∀ p : Params, p.Legal → (State.resetWith p).Inv) ∧ State.reset.Inv

/-- Every step keeps the invariant (R34). -/
def Obligations.InvKeptByStep : Prop :=
  ∀ s t : State, s.Inv → step s = .next t → t.Inv

/-- In every reachable state, in both arithmetics, every step count is at most 254, so `sc + 1` never wraps
(10_state.md R35). -/
def Obligations.StepCountStaysBelow255 : Prop :=
  ∀ (p : Params) (s : State), p.Legal → Reachable p s →
    ∀ k < s.params.numLeds, (s.led k).sc.toNat ≤ 254

/-- If every allocated slot's wave width divides NUM_LEDS, no LED is stale and STEP never answers StalePhase
(70_reset_and_hazards.md R181 (a)). -/
def Obligations.NoStalePhaseWhenWavesTile : Prop :=
  ∀ (p : Params) (s : State), p.Legal → Reachable p s →
    (∀ i < s.used.toNat, (s.slot i).w.toNat ∣ s.params.numLeds) → s.active ≠ 0xFF →
    (∀ k < s.params.numLeds, (s.led k).idx.toNat < (s.slot s.active.toNat).n.toNat) ∧
    ∃ t, exec .step s = .next t ∧ t.hostOut = s.hostOut ++ [0x00000000]

/-- If every slot that becomes active has at least as many points as the slot active before it, every LED's
`idx` stays below the active slot's `N` (and stays 0 until a first slot is active), so STEP never answers
StalePhase (70_reset_and_hazards.md R181 (b)). One step of a run: the two clauses on `s` come back for `t`. -/
def Obligations.NoStalePhaseWhenPointCountsGrow : Prop :=
  ∀ (s t : State) (w : CmdWord) (rest : List HostEvent), s.Inv →
    (s.active = 0xFF → ∀ k < s.params.numLeds, (s.led k).idx = 0) →
    (s.active ≠ 0xFF → ∀ k < s.params.numLeds, (s.led k).idx.toNat < (s.slot s.active.toNat).n.toNat) →
    s.hostIn = .command w :: rest → step s = .next t →
    (s.active ≠ 0xFF → (s.slot s.active.toNat).n.toNat ≤ (t.slot t.active.toNat).n.toNat) →
    (t.active = 0xFF → ∀ k < t.params.numLeds, (t.led k).idx = 0) ∧
    (t.active ≠ 0xFF → ∀ k < t.params.numLeds, (t.led k).idx.toNat < (t.slot t.active.toNat).n.toNat) ∧
    (t.active ≠ 0xFF → ∃ u, exec .step t = .next u ∧ u.hostOut = t.hostOut ++ [0x00000000])

/-- The GRADIENT pseudo-command on the next free slot: every command of it answers OK, and the slot ends READY,
active and holding the points in order (30_encoding.md R81, 70_reset_and_hazards.md R178). -/
def Obligations.GradientPseudoLoadsSlot : Prop :=
  ∀ (s : State) (n : U8) (w : U16) (pts : List ControlPoint), s.Inv →
    s.used.toNat < s.params.maxGradients → pts.length = n.toNat → 1 ≤ n.toNat →
    n.toNat ≤ s.params.maxPoints → 1 ≤ w.toNat → w.toNat ≤ s.params.numLeds →
    (∀ q ∈ pts, q.dur ≠ 0) →
    ∃ t, runInstrs (expand (.gradient s.used n w pts)) s = .next t ∧
      t.active = s.used ∧ t.used.toNat = s.used.toNat + 1 ∧
      (t.slot s.used.toNat).life = .ready ∧ (t.slot s.used.toNat).n = n ∧ (t.slot s.used.toNat).w = w ∧
      (∀ i (h : i < pts.length), (t.slot s.used.toNat).point i = pts[i]) ∧
      (∀ j, j ≠ s.used.toNat → t.slot j = s.slot j) ∧
      t.hostOut = s.hostOut ++
        (0x00#8 ++ 0#16 ++ s.used : RspWord) :: List.replicate n.toNat (0x00000000 : RspWord)

/-- A host that reads FAULT as 0 after a run of commands knows that no STEP of the run was refused as stale and
no word of it was illegal (43_readout.md R145). -/
def Obligations.ClearFaultMeansNoRefusal : Prop :=
  ∀ (k : Nat) (s : State), k ≤ s.hostIn.length → (∀ e ∈ s.hostIn, ∃ w, e = .command w) →
    ∃ t : State, Host.Core.run Sys2Proof.core k s = .next t ∧
      ∃ rs : List RspWord, t.hostOut = s.hostOut ++ rs ∧ rs.length = k ∧
        (t.fault &&& 0x03 = 0 → ∀ r ∈ rs, rspStatus r ≠ 0x06 ∧ rspStatus r ≠ 0x07)

/-- Every command an assembler makes of source text is well formed, so its word decodes to it (30_encoding.md
R80, R81). -/
def Obligations.AssembledCommandsWellFormed : Prop :=
  (∀ src : Source, (∀ i, src = .core i → i.wellFormed = true) → ∀ i ∈ expand src, i.wellFormed = true) ∧
  (∀ (ls : List (List Char)) (is : List Instr), assemble ls = .ok is → ∀ i ∈ is, i.wellFormed = true)

/-! ### Invariants that one step keeps -/

/-- Every step keeps every step count at 254 or below, in both arithmetics, so `sc + 1` never wraps
(10_state.md R35). -/
def Obligations.StepCountBoundKeptByStep : Prop :=
  ∀ s t : State, s.Inv → (∀ k < s.params.numLeds, (s.led k).sc.toNat ≤ 254) → step s = .next t →
    ∀ k < t.params.numLeds, (t.led k).sc.toNat ≤ 254

/-- If the slot active after a step has no trailing LEDs, the step keeps every LED's `idx` below the active slot's
`N`, and STEP then answers OK (70_reset_and_hazards.md R181 (a), in the general form of its first clause). -/
def Obligations.PhasesInRangeKeptWithoutTrailingLeds : Prop :=
  ∀ s t : State, s.Inv →
    (s.active ≠ 0xFF → ∀ k < s.params.numLeds, (s.led k).idx.toNat < (s.slot s.active.toNat).n.toNat) →
    step s = .next t →
    (t.active ≠ 0xFF → t.params.numLeds % numWaves t.params (t.slot t.active.toNat) = 0) →
    t.active ≠ 0xFF →
    (∀ k < t.params.numLeds, (t.led k).idx.toNat < (t.slot t.active.toNat).n.toNat) ∧
    ∃ u, exec .step t = .next u ∧ u.hostOut = t.hostOut ++ [0x00000000]

/-- After reset, of every instance, every step count is at most 254 and no slot is active, so the premises of the
two statements above on the state before a step hold (10_state.md R37). -/
def Obligations.PhaseInvariantsHoldAtReset : Prop :=
  ∀ p : Params, (∀ k < (State.resetWith p).params.numLeds, ((State.resetWith p).led k).sc.toNat ≤ 254) ∧
    (State.resetWith p).active = 0xFF
end

