-- ==== Sys2Proof/Laws/Arith.lean ====
section
/-! SUPPORT. The arithmetic of `D`: powers of two, the exponent and the rounding of binary32, and the rounding of
a color (00_scope.md R11 to R15). -/

namespace Sys2Proof.Machine

/-! ### Powers of two and the exponent -/

theorem pow2_eq_zpow (k : Int) : pow2 k = (2 : Rat) ^ k := by
  cases k with
  | ofNat n => simp [pow2]
  | negSucc n => simp [pow2, zpow_negSucc]

theorem pow2_pos (k : Int) : 0 < pow2 k := by
  rw [pow2_eq_zpow]; positivity

theorem pow2_add (j k : Int) : pow2 (j + k) = pow2 j * pow2 k := by
  simp only [pow2_eq_zpow]; exact zpow_add₀ (by norm_num) j k

theorem pow2_le_iff (j k : Int) : pow2 j ≤ pow2 k ↔ j ≤ k := by
  simp only [pow2_eq_zpow]; exact zpow_le_zpow_iff_right₀ (by norm_num)

theorem pow2_lt_iff (j k : Int) : pow2 j < pow2 k ↔ j < k := by
  simp only [pow2_eq_zpow]; exact zpow_lt_zpow_iff_right₀ (by norm_num)

/-- A positive natural lies between consecutive powers of two. -/
theorem log2_bounds {n : Nat} (h : n ≠ 0) :
    (2 : Rat) ^ (Nat.log2 n : Int) ≤ n ∧ (n : Rat) < 2 ^ ((Nat.log2 n : Int) + 1) := by
  constructor
  · exact_mod_cast Nat.log2_self_le h
  · have : n < 2 ^ (Nat.log2 n + 1) := Nat.lt_log2_self
    exact_mod_cast this

/-- `exponent2 x` is the exponent of `x`: `2^e ≤ |x| < 2^(e+1)`. -/
theorem exponent2_spec {x : Rat} (h : x ≠ 0) :
    pow2 (exponent2 x) ≤ |x| ∧ |x| < pow2 (exponent2 x + 1) := by
  have hn : x.num.natAbs ≠ 0 := by simpa using h
  have hd : x.den ≠ 0 := x.den_nz
  obtain ⟨hn1, hn2⟩ := log2_bounds hn
  obtain ⟨hd1, hd2⟩ := log2_bounds hd
  have hx : |x| = (x.num.natAbs : Rat) / x.den := by
    conv_lhs => rw [← Rat.num_div_den x]
    rw [abs_div, Nat.abs_cast, Nat.cast_natAbs, Int.cast_abs]
  have hdp : (0 : Rat) < x.den := by exact_mod_cast Nat.pos_of_ne_zero hd
  have h2 : (2 : Rat) ≠ 0 := by norm_num
  have hup : |x| < pow2 ((Nat.log2 x.num.natAbs : Int) - Nat.log2 x.den + 1) := by
    rw [hx, div_lt_iff₀ hdp, pow2_eq_zpow]
    calc ((x.num.natAbs : Nat) : Rat) < 2 ^ ((Nat.log2 x.num.natAbs : Int) + 1) := hn2
      _ = 2 ^ ((Nat.log2 x.num.natAbs : Int) - Nat.log2 x.den + 1) * 2 ^ (Nat.log2 x.den : Int) := by
        rw [← zpow_add₀ h2]; congr 1; ring
      _ ≤ _ := by gcongr
  have hlo : pow2 ((Nat.log2 x.num.natAbs : Int) - Nat.log2 x.den - 1) ≤ |x| := by
    rw [hx, le_div_iff₀ hdp, pow2_eq_zpow]
    calc (2 : Rat) ^ ((Nat.log2 x.num.natAbs : Int) - Nat.log2 x.den - 1) * x.den
        ≤ 2 ^ ((Nat.log2 x.num.natAbs : Int) - Nat.log2 x.den - 1) * 2 ^ ((Nat.log2 x.den : Int) + 1) := by
          gcongr
      _ = 2 ^ (Nat.log2 x.num.natAbs : Int) := by rw [← zpow_add₀ h2]; congr 1; ring
      _ ≤ _ := hn1
  unfold exponent2
  simp only
  split
  · next hle => exact ⟨hle, hup⟩
  · next hle => exact ⟨hlo, by simpa using hle⟩

/-! ### Rounding to an integer -/

theorem floorD_eq (x : D) : floorD x = ⌊x⌋ := rfl

/-- The nearest integer is within one half. -/
theorem nearestEven_error (x : Rat) : |(nearestEven x : Rat) - x| ≤ 1 / 2 := by
  have h1 : ((x.floor : Int) : Rat) ≤ x := Int.floor_le x
  have h2 : x < x.floor + 1 := Int.lt_floor_add_one x
  unfold nearestEven
  simp only
  split_ifs <;> push_cast <;> rw [abs_le] <;> constructor <;> linarith

/-- An integer rounds to itself. -/
theorem nearestEven_intCast (n : Int) : nearestEven (n : Rat) = n := by
  have h : ((n : Rat)).floor = n := Rat.floor_intCast n
  simp [nearestEven, h]

/-- No integer is nearer. -/
theorem nearestEven_le (x : Rat) (n : Int) : |(nearestEven x : Rat) - x| ≤ |(n : Rat) - x| := by
  by_cases h : n = nearestEven x
  · rw [h]
  · have he := nearestEven_error x
    have hn : (1 : Rat) ≤ |(n : Rat) - nearestEven x| := by
      have : (1 : Int) ≤ |n - nearestEven x| := Int.one_le_abs (sub_ne_zero.mpr h)
      exact_mod_cast this
    have := abs_sub_le (n : Rat) x (nearestEven x)
    rw [abs_sub_comm x] at this
    linarith

/-! ### The color of a channel (00_scope.md R14, R15) -/

theorem clampD_bounds (x : D) : 0 ≤ clampD x ∧ clampD x ≤ 255 := by
  unfold clampD
  split_ifs <;> constructor <;> linarith

/-- `ROUND(CLAMP(x))` is an integer in 0..255 (R15). -/
theorem roundD_clampD_bounds (x : D) : 0 ≤ roundD (clampD x) ∧ roundD (clampD x) ≤ 255 := by
  obtain ⟨h0, h1⟩ := clampD_bounds x
  unfold roundD
  rw [floorD_eq]
  constructor
  · exact Int.floor_nonneg.mpr (by linarith)
  · have h : clampD x + 1 / 2 < ((256 : Int) : Rat) := by push_cast; linarith
    have := Int.floor_lt.mpr h
    omega

/-- So storing it as u8 loses nothing (R15). -/
theorem colorU8_toNat (x : D) : ((colorU8 x).toNat : Int) = roundD (clampD x) := by
  obtain ⟨h0, h1⟩ := roundD_clampD_bounds x
  unfold colorU8
  rw [BitVec.toNat_ofInt]
  omega

/-! ### The two arithmetics -/

@[simp] theorem fitD_exact (x : Rat) : fitD .exact x = x := rfl

@[simp] theorem fitD_binary32 (x : Rat) : fitD .binary32 x = nearest32 x := rfl

@[simp] theorem nearest32_zero : nearest32 0 = 0 := rfl

end Sys2Proof.Machine
end

