-- ==== Sys2Proof/Laws/Encoding.lean ====
section
/-! SUPPORT. The fields of a command word and the word packed from its fields (30_encoding.md R64). -/

namespace Sys2Proof

section
variable (op sl : U8) (x : U16) (c3 c2 c1 c0 : U8)

/-- The packed word as a number, one field above the next. -/
theorem packFields_toNat : (packFields op sl x c3 c2 c1 c0).toNat =
    (((((op.toNat * 2 ^ 8 + sl.toNat) * 2 ^ 16 + x.toNat) * 2 ^ 8 + c3.toNat) * 2 ^ 8 + c2.toNat) * 2 ^ 8
      + c1.toNat) * 2 ^ 8 + c0.toNat := by
  simp only [packFields, BitVec.toNat_append]
  repeat rw [Nat.shiftLeft_eq, Nat.mul_comm _ (2 ^ _), ← Nat.two_pow_add_eq_or_of_lt (by exact BitVec.isLt _)]
  ring

theorem opField_packFields : opField (packFields op sl x c3 c2 c1 c0) = op := by
  apply BitVec.eq_of_toNat_eq
  simp only [opField, BitVec.extractLsb'_toNat, packFields_toNat, Nat.shiftRight_eq_div_pow]
  omega

theorem slotField_packFields : slotField (packFields op sl x c3 c2 c1 c0) = sl := by
  apply BitVec.eq_of_toNat_eq
  simp only [slotField, BitVec.extractLsb'_toNat, packFields_toNat, Nat.shiftRight_eq_div_pow]
  omega

theorem x16Field_packFields : x16Field (packFields op sl x c3 c2 c1 c0) = x := by
  apply BitVec.eq_of_toNat_eq
  simp only [x16Field, BitVec.extractLsb'_toNat, packFields_toNat, Nat.shiftRight_eq_div_pow]
  omega

theorem c3Field_packFields : c3Field (packFields op sl x c3 c2 c1 c0) = c3 := by
  apply BitVec.eq_of_toNat_eq
  simp only [c3Field, BitVec.extractLsb'_toNat, packFields_toNat, Nat.shiftRight_eq_div_pow]
  omega

theorem c2Field_packFields : c2Field (packFields op sl x c3 c2 c1 c0) = c2 := by
  apply BitVec.eq_of_toNat_eq
  simp only [c2Field, BitVec.extractLsb'_toNat, packFields_toNat, Nat.shiftRight_eq_div_pow]
  omega

theorem c1Field_packFields : c1Field (packFields op sl x c3 c2 c1 c0) = c1 := by
  apply BitVec.eq_of_toNat_eq
  simp only [c1Field, BitVec.extractLsb'_toNat, packFields_toNat, Nat.shiftRight_eq_div_pow]
  omega

theorem c0Field_packFields : c0Field (packFields op sl x c3 c2 c1 c0) = c0 := by
  apply BitVec.eq_of_toNat_eq
  simp only [c0Field, BitVec.extractLsb'_toNat, packFields_toNat, Nat.shiftRight_eq_div_pow]
  omega

theorem chField_packFields : chField (packFields op sl x c3 c2 c1 c0) = c3.extractLsb' 0 2 := by
  apply BitVec.eq_of_toNat_eq
  simp only [chField, BitVec.extractLsb'_toNat, packFields_toNat, Nat.shiftRight_eq_div_pow]
  omega

/-- Masking a packed word masks each field. -/
theorem packFields_and (op' sl' : U8) (x' : U16) (c3' c2' c1' c0' : U8) :
    packFields op sl x c3 c2 c1 c0 &&& packFields op' sl' x' c3' c2' c1' c0' =
      packFields (op &&& op') (sl &&& sl') (x &&& x') (c3 &&& c3') (c2 &&& c2') (c1 &&& c1') (c0 &&& c0') := by
  simp only [packFields]
  repeat rw [BitVec.and_append]

end

/-- A command word is packed from its own fields. -/
theorem packFields_fields (w : CmdWord) :
    packFields (opField w) (slotField w) (x16Field w) (c3Field w) (c2Field w) (c1Field w) (c0Field w) = w := by
  apply BitVec.eq_of_toNat_eq
  simp only [packFields_toNat, opField, slotField, x16Field, c3Field, c2Field, c1Field, c0Field,
    BitVec.extractLsb'_toNat, Nat.shiftRight_eq_div_pow]
  omega

/-- The mask column of 30_encoding.md R69, field by field. -/
theorem maskWord_eq (op : Op) : maskWord op = match op with
    | .nop => packFields 0xFF 0xFF 0xFFFF 0xFF 0xFF 0xFF 0xFF
    | .addGradient => packFields 0xFF 0xFF 0 0xFF 0xFF 0xFF 0
    | .appendCp => packFields 0xFF 0 0xFFFF 0 0 0 0
    | .startGradient => packFields 0xFF 0 0xFFFF 0xFF 0xFF 0xFF 0xFF
    | .step => packFields 0xFF 0xFF 0xFFFF 0xFF 0xFF 0xFF 0xFF
    | .readLed => packFields 0xFF 0xFF 0 0xFC 0xFF 0xFF 0xFF
    | .readPhase => packFields 0xFF 0xFF 0 0xFF 0xFF 0xFF 0xFF
    | .readStatus => packFields 0xFF 0xFF 0xFFFF 0xFF 0xFF 0xFF 0xFF := by
  cases op <;> decide

/-- The match column of R69: the opcode byte and zeros. -/
theorem matchWord_eq (op : Op) : matchWord op = packFields (opByte op) 0 0 0 0 0 0 := by
  cases op <;> decide

/-- An opcode byte selects its own command (R68). -/
theorem opOfByte_opByte (op : Op) : opOfByte (opByte op) = some op := by
  cases op <;> decide

end Sys2Proof
end

