-- ==== Sys2Proof/Laws/State.lean ====
section
/-! SUPPORT. One lemma per field per update of State and of a slot, true by `rfl`, so that no proof unfolds a
record update. -/

namespace Sys2Proof.Machine

/-! ### setSlot -/

@[simp] theorem State.setSlot_params (s : State) (i : Nat) (sl : Slot) : (s.setSlot i sl).params = s.params := rfl

@[simp] theorem State.setSlot_leds (s : State) (i : Nat) (sl : Slot) : (s.setSlot i sl).leds = s.leds := rfl

@[simp] theorem State.setSlot_slots (s : State) (i : Nat) (sl : Slot) : (s.setSlot i sl).slots =
    s.slots.set i sl := rfl

@[simp] theorem State.setSlot_used (s : State) (i : Nat) (sl : Slot) : (s.setSlot i sl).used = s.used := rfl

@[simp] theorem State.setSlot_active (s : State) (i : Nat) (sl : Slot) : (s.setSlot i sl).active = s.active := rfl

@[simp] theorem State.setSlot_fault (s : State) (i : Nat) (sl : Slot) : (s.setSlot i sl).fault = s.fault := rfl

@[simp] theorem State.setSlot_hostIn (s : State) (i : Nat) (sl : Slot) : (s.setSlot i sl).hostIn = s.hostIn := rfl

@[simp] theorem State.setSlot_hostOut (s : State) (i : Nat) (sl : Slot) : (s.setSlot i sl).hostOut = s.hostOut := rfl

/-! ### setLeds -/

@[simp] theorem State.setLeds_params (s : State) (ls : List Led) : (s.setLeds ls).params = s.params := rfl

@[simp] theorem State.setLeds_leds (s : State) (ls : List Led) : (s.setLeds ls).leds = ls := rfl

@[simp] theorem State.setLeds_slots (s : State) (ls : List Led) : (s.setLeds ls).slots = s.slots := rfl

@[simp] theorem State.setLeds_used (s : State) (ls : List Led) : (s.setLeds ls).used = s.used := rfl

@[simp] theorem State.setLeds_active (s : State) (ls : List Led) : (s.setLeds ls).active = s.active := rfl

@[simp] theorem State.setLeds_fault (s : State) (ls : List Led) : (s.setLeds ls).fault = s.fault := rfl

@[simp] theorem State.setLeds_hostIn (s : State) (ls : List Led) : (s.setLeds ls).hostIn = s.hostIn := rfl

@[simp] theorem State.setLeds_hostOut (s : State) (ls : List Led) : (s.setLeds ls).hostOut = s.hostOut := rfl

/-! ### setUsed -/

@[simp] theorem State.setUsed_params (s : State) (v : U8) : (s.setUsed v).params = s.params := rfl

@[simp] theorem State.setUsed_leds (s : State) (v : U8) : (s.setUsed v).leds = s.leds := rfl

@[simp] theorem State.setUsed_slots (s : State) (v : U8) : (s.setUsed v).slots = s.slots := rfl

@[simp] theorem State.setUsed_used (s : State) (v : U8) : (s.setUsed v).used = v := rfl

@[simp] theorem State.setUsed_active (s : State) (v : U8) : (s.setUsed v).active = s.active := rfl

@[simp] theorem State.setUsed_fault (s : State) (v : U8) : (s.setUsed v).fault = s.fault := rfl

@[simp] theorem State.setUsed_hostIn (s : State) (v : U8) : (s.setUsed v).hostIn = s.hostIn := rfl

@[simp] theorem State.setUsed_hostOut (s : State) (v : U8) : (s.setUsed v).hostOut = s.hostOut := rfl

/-! ### setActive -/

@[simp] theorem State.setActive_params (s : State) (v : U8) : (s.setActive v).params = s.params := rfl

@[simp] theorem State.setActive_leds (s : State) (v : U8) : (s.setActive v).leds = s.leds := rfl

@[simp] theorem State.setActive_slots (s : State) (v : U8) : (s.setActive v).slots = s.slots := rfl

@[simp] theorem State.setActive_used (s : State) (v : U8) : (s.setActive v).used = s.used := rfl

@[simp] theorem State.setActive_active (s : State) (v : U8) : (s.setActive v).active = v := rfl

@[simp] theorem State.setActive_fault (s : State) (v : U8) : (s.setActive v).fault = s.fault := rfl

@[simp] theorem State.setActive_hostIn (s : State) (v : U8) : (s.setActive v).hostIn = s.hostIn := rfl

@[simp] theorem State.setActive_hostOut (s : State) (v : U8) : (s.setActive v).hostOut = s.hostOut := rfl

/-! ### setFault -/

@[simp] theorem State.setFault_params (s : State) (v : U8) : (s.setFault v).params = s.params := rfl

@[simp] theorem State.setFault_leds (s : State) (v : U8) : (s.setFault v).leds = s.leds := rfl

@[simp] theorem State.setFault_slots (s : State) (v : U8) : (s.setFault v).slots = s.slots := rfl

@[simp] theorem State.setFault_used (s : State) (v : U8) : (s.setFault v).used = s.used := rfl

@[simp] theorem State.setFault_active (s : State) (v : U8) : (s.setFault v).active = s.active := rfl

@[simp] theorem State.setFault_fault (s : State) (v : U8) : (s.setFault v).fault = v := rfl

@[simp] theorem State.setFault_hostIn (s : State) (v : U8) : (s.setFault v).hostIn = s.hostIn := rfl

@[simp] theorem State.setFault_hostOut (s : State) (v : U8) : (s.setFault v).hostOut = s.hostOut := rfl

/-! ### respond -/

@[simp] theorem State.respond_params (s : State) (st : Status) (d : RspData) : (s.respond st d).params =
    s.params := rfl

@[simp] theorem State.respond_leds (s : State) (st : Status) (d : RspData) : (s.respond st d).leds = s.leds := rfl

@[simp] theorem State.respond_slots (s : State) (st : Status) (d : RspData) : (s.respond st d).slots = s.slots := rfl

@[simp] theorem State.respond_used (s : State) (st : Status) (d : RspData) : (s.respond st d).used = s.used := rfl

@[simp] theorem State.respond_active (s : State) (st : Status) (d : RspData) : (s.respond st d).active =
    s.active := rfl

@[simp] theorem State.respond_fault (s : State) (st : Status) (d : RspData) : (s.respond st d).fault = s.fault := rfl

@[simp] theorem State.respond_hostIn (s : State) (st : Status) (d : RspData) : (s.respond st d).hostIn =
    s.hostIn := rfl

@[simp] theorem State.respond_hostOut (s : State) (st : Status) (d : RspData) : (s.respond st d).hostOut =
    s.hostOut ++ [rspWord st d] := rfl

/-! ### raiseError -/

@[simp] theorem State.raiseError_params (s : State) (st : Status) : (s.raiseError st).params = s.params := rfl

@[simp] theorem State.raiseError_leds (s : State) (st : Status) : (s.raiseError st).leds = s.leds := rfl

@[simp] theorem State.raiseError_slots (s : State) (st : Status) : (s.raiseError st).slots = s.slots := rfl

@[simp] theorem State.raiseError_used (s : State) (st : Status) : (s.raiseError st).used = s.used := rfl

@[simp] theorem State.raiseError_active (s : State) (st : Status) : (s.raiseError st).active = s.active := rfl

@[simp] theorem State.raiseError_fault (s : State) (st : Status) : (s.raiseError st).fault =
    faultAfter st s.fault := rfl

@[simp] theorem State.raiseError_hostIn (s : State) (st : Status) : (s.raiseError st).hostIn = s.hostIn := rfl

@[simp] theorem State.raiseError_hostOut (s : State) (st : Status) : (s.raiseError st).hostOut =
    s.hostOut ++ [rspWord st 0] := rfl

/-! ### popHost -/

@[simp] theorem State.popHost_params (s : State) : (s.popHost).params = s.params := rfl

@[simp] theorem State.popHost_leds (s : State) : (s.popHost).leds = s.leds := rfl

@[simp] theorem State.popHost_slots (s : State) : (s.popHost).slots = s.slots := rfl

@[simp] theorem State.popHost_used (s : State) : (s.popHost).used = s.used := rfl

@[simp] theorem State.popHost_active (s : State) : (s.popHost).active = s.active := rfl

@[simp] theorem State.popHost_fault (s : State) : (s.popHost).fault = s.fault := rfl

@[simp] theorem State.popHost_hostIn (s : State) : (s.popHost).hostIn = s.hostIn.tail := rfl

@[simp] theorem State.popHost_hostOut (s : State) : (s.popHost).hostOut = s.hostOut := rfl

/-! ### activate -/

@[simp] theorem State.activate_params (s : State) (sl : U8) : (s.activate sl).params = s.params := rfl

@[simp] theorem State.activate_leds (s : State) (sl : U8) : (s.activate sl).leds =
    placeLeds s.params (s.slot sl.toNat) s.leds := rfl

@[simp] theorem State.activate_slots (s : State) (sl : U8) : (s.activate sl).slots = s.slots := rfl

@[simp] theorem State.activate_used (s : State) (sl : U8) : (s.activate sl).used = s.used := rfl

@[simp] theorem State.activate_active (s : State) (sl : U8) : (s.activate sl).active = sl := rfl

@[simp] theorem State.activate_fault (s : State) (sl : U8) : (s.activate sl).fault = s.fault := rfl

@[simp] theorem State.activate_hostIn (s : State) (sl : U8) : (s.activate sl).hostIn = s.hostIn := rfl

@[simp] theorem State.activate_hostOut (s : State) (sl : U8) : (s.activate sl).hostOut = s.hostOut := rfl

/-! ### applyReset -/

@[simp] theorem State.applyReset_params (s : State) : (s.applyReset).params = s.params := rfl

@[simp] theorem State.applyReset_leds (s : State) : (s.applyReset).leds =
    List.replicate s.params.numLeds Led.blank := rfl

@[simp] theorem State.applyReset_slots (s : State) : (s.applyReset).slots =
    List.replicate s.params.maxGradients (Slot.blank s.params) := rfl

@[simp] theorem State.applyReset_used (s : State) : (s.applyReset).used = 0 := rfl

@[simp] theorem State.applyReset_active (s : State) : (s.applyReset).active = activeNone := rfl

@[simp] theorem State.applyReset_fault (s : State) : (s.applyReset).fault = 0 := rfl

@[simp] theorem State.applyReset_hostIn (s : State) : (s.applyReset).hostIn = s.hostIn := rfl

@[simp] theorem State.applyReset_hostOut (s : State) : (s.applyReset).hostOut = s.hostOut := rfl

/-! ### resetWith -/

@[simp] theorem State.resetWith_params (p : Params) : (State.resetWith p).params = p := rfl

@[simp] theorem State.resetWith_leds (p : Params) : (State.resetWith p).leds = List.replicate p.numLeds Led.blank := rfl

@[simp] theorem State.resetWith_slots (p : Params) : (State.resetWith p).slots = List.replicate p.maxGradients (Slot.blank p) := rfl

@[simp] theorem State.resetWith_used (p : Params) : (State.resetWith p).used = 0 := rfl

@[simp] theorem State.resetWith_active (p : Params) : (State.resetWith p).active = activeNone := rfl

@[simp] theorem State.resetWith_fault (p : Params) : (State.resetWith p).fault = 0 := rfl

@[simp] theorem State.resetWith_hostIn (p : Params) : (State.resetWith p).hostIn = [] := rfl

@[simp] theorem State.resetWith_hostOut (p : Params) : (State.resetWith p).hostOut = [] := rfl

/-! ### Slot.allocated -/

@[simp] theorem Slot.allocated_life (sl : Slot) (n : U8) (w : U16) : (sl.allocated n w).life = .filling := rfl

@[simp] theorem Slot.allocated_n (sl : Slot) (n : U8) (w : U16) : (sl.allocated n w).n = n := rfl

@[simp] theorem Slot.allocated_w (sl : Slot) (n : U8) (w : U16) : (sl.allocated n w).w = w := rfl

@[simp] theorem Slot.allocated_count (sl : Slot) (n : U8) (w : U16) : (sl.allocated n w).count = 0 := rfl

@[simp] theorem Slot.allocated_pt (sl : Slot) (n : U8) (w : U16) : (sl.allocated n w).pt = sl.pt := rfl

@[simp] theorem Slot.allocated_delta (sl : Slot) (n : U8) (w : U16) : (sl.allocated n w).delta = sl.delta := rfl

/-! ### Slot.appended -/

@[simp] theorem Slot.appended_life (sl : Slot) (p : ControlPoint) : (sl.appended p).life = sl.life := rfl

@[simp] theorem Slot.appended_n (sl : Slot) (p : ControlPoint) : (sl.appended p).n = sl.n := rfl

@[simp] theorem Slot.appended_w (sl : Slot) (p : ControlPoint) : (sl.appended p).w = sl.w := rfl

@[simp] theorem Slot.appended_count (sl : Slot) (p : ControlPoint) : (sl.appended p).count = sl.count + 1 := rfl

@[simp] theorem Slot.appended_pt (sl : Slot) (p : ControlPoint) : (sl.appended p).pt = sl.pt.set sl.count.toNat p := rfl

@[simp] theorem Slot.appended_delta (sl : Slot) (p : ControlPoint) : (sl.appended p).delta = sl.delta := rfl

/-! ### computeDeltas and Slot.completed -/

@[simp] theorem computeDeltas_life (a : Arith) (sl : Slot) : (computeDeltas a sl).life = sl.life := rfl

@[simp] theorem computeDeltas_n (a : Arith) (sl : Slot) : (computeDeltas a sl).n = sl.n := rfl

@[simp] theorem computeDeltas_w (a : Arith) (sl : Slot) : (computeDeltas a sl).w = sl.w := rfl

@[simp] theorem computeDeltas_count (a : Arith) (sl : Slot) : (computeDeltas a sl).count = sl.count := rfl

@[simp] theorem computeDeltas_pt (a : Arith) (sl : Slot) : (computeDeltas a sl).pt = sl.pt := rfl

@[simp] theorem Slot.completed_life (a : Arith) (sl : Slot) : (sl.completed a).life = .ready := rfl

@[simp] theorem Slot.completed_n (a : Arith) (sl : Slot) : (sl.completed a).n = sl.n := rfl

@[simp] theorem Slot.completed_w (a : Arith) (sl : Slot) : (sl.completed a).w = sl.w := rfl

@[simp] theorem Slot.completed_count (a : Arith) (sl : Slot) : (sl.completed a).count = sl.count := rfl

@[simp] theorem Slot.completed_pt (a : Arith) (sl : Slot) : (sl.completed a).pt = sl.pt := rfl

/-! ### Slot.blank -/

@[simp] theorem Slot.blank_life (p : Params) : (Slot.blank p).life = .empty := rfl

@[simp] theorem Slot.blank_pt (p : Params) :
    (Slot.blank p).pt = List.replicate p.maxPoints ControlPoint.blank := rfl

@[simp] theorem Slot.blank_delta (p : Params) :
    (Slot.blank p).delta = List.replicate p.maxPoints SegmentDelta.blank := rfl

end Sys2Proof.Machine
end

