-- ==== Sys2Proof/Laws/Ops.lean ====
section
/-! SUPPORT. What the shared operations do, once each: reads of array entries after writes, the LED memory after
ACTIVATE and STEP, the delta table after COMPUTE_DELTAS, and the outcomes of a step. -/

namespace Sys2Proof.Machine

/-! ### Reads that an update of another field leaves alone -/

@[simp] theorem State.setSlot_led (s : State) (i : Nat) (sl : Slot) (k : Nat) : (s.setSlot i sl).led k = s.led k := rfl

@[simp] theorem State.setUsed_led (s : State) (v : U8) (k : Nat) : (s.setUsed v).led k = s.led k := rfl

@[simp] theorem State.setActive_led (s : State) (v : U8) (k : Nat) : (s.setActive v).led k = s.led k := rfl

@[simp] theorem State.setFault_led (s : State) (v : U8) (k : Nat) : (s.setFault v).led k = s.led k := rfl

@[simp] theorem State.respond_led (s : State) (st : Status) (d : RspData) (k : Nat) : (s.respond st d).led k = s.led k := rfl

@[simp] theorem State.raiseError_led (s : State) (st : Status) (k : Nat) : (s.raiseError st).led k = s.led k := rfl

@[simp] theorem State.popHost_led (s : State) (k : Nat) : (s.popHost).led k = s.led k := rfl

@[simp] theorem State.setLeds_slot (s : State) (ls : List Led) (i : Nat) : (s.setLeds ls).slot i = s.slot i := rfl

@[simp] theorem State.setUsed_slot (s : State) (v : U8) (i : Nat) : (s.setUsed v).slot i = s.slot i := rfl

@[simp] theorem State.setActive_slot (s : State) (v : U8) (i : Nat) : (s.setActive v).slot i = s.slot i := rfl

@[simp] theorem State.setFault_slot (s : State) (v : U8) (i : Nat) : (s.setFault v).slot i = s.slot i := rfl

@[simp] theorem State.respond_slot (s : State) (st : Status) (d : RspData) (i : Nat) : (s.respond st d).slot i = s.slot i := rfl

@[simp] theorem State.raiseError_slot (s : State) (st : Status) (i : Nat) : (s.raiseError st).slot i = s.slot i := rfl

@[simp] theorem State.popHost_slot (s : State) (i : Nat) : (s.popHost).slot i = s.slot i := rfl

@[simp] theorem State.activate_slot (s : State) (sl : U8) (i : Nat) : (s.activate sl).slot i = s.slot i := rfl

/-! ### Slots -/

theorem State.slot_setSlot_self (s : State) (i : Nat) (sl : Slot) (h : i < s.slots.length) :
    (s.setSlot i sl).slot i = sl := by
  simp [State.slot, State.setSlot, h]

theorem State.slot_setSlot_ne (s : State) {i j : Nat} (sl : Slot) (h : i ≠ j) :
    (s.setSlot i sl).slot j = s.slot j := by
  simp [State.slot, State.setSlot, List.getElem?_set_ne h]

/-- A slot write either lands on the slot or, past the array's end, writes nothing. -/
theorem State.slot_setSlot (s : State) (i j : Nat) (sl : Slot) :
    (s.setSlot i sl).slot j = if i = j ∧ i < s.slots.length then sl else s.slot j := by
  by_cases h : i = j
  · subst h
    by_cases hi : i < s.slots.length
    · simp [hi, State.slot_setSlot_self]
    · simp [hi, State.slot, State.setSlot]
  · simp [h, State.slot_setSlot_ne]

theorem State.resetWith_slot (p : Params) (i : Nat) : (State.resetWith p).slot i = Slot.blank p := by
  simp only [State.slot, State.resetWith_slots, State.resetWith_params, List.getD_eq_getElem?_getD,
    List.getElem?_replicate]
  split <;> rfl

/-! ### The entries of a slot -/

theorem Slot.appended_point_self (sl : Slot) (p : ControlPoint) (h : sl.count.toNat < sl.pt.length) :
    (sl.appended p).point sl.count.toNat = p := by
  simp [Slot.point, h]

theorem Slot.appended_point_ne (sl : Slot) (p : ControlPoint) {i : Nat} (h : sl.count.toNat ≠ i) :
    (sl.appended p).point i = sl.point i := by
  simp [Slot.point, List.getElem?_set_ne h]

@[simp] theorem Slot.completed_point (a : Arith) (sl : Slot) (i : Nat) :
    (sl.completed a).point i = sl.point i := rfl

@[simp] theorem Slot.allocated_point (sl : Slot) (n : U8) (w : U16) (i : Nat) :
    (sl.allocated n w).point i = sl.point i := rfl

@[simp] theorem computeDeltas_point (a : Arith) (sl : Slot) (i : Nat) :
    (computeDeltas a sl).point i = sl.point i := rfl

@[simp] theorem computeDeltas_delta_length (a : Arith) (sl : Slot) :
    (computeDeltas a sl).delta.length = sl.delta.length := by
  simp [computeDeltas]

/-- COMPUTE_DELTAS writes entries `0..N-1` and keeps the others (41_activation.md R101). -/
theorem computeDeltas_segDelta (a : Arith) (sl : Slot) (i : Nat) :
    (computeDeltas a sl).segDelta i =
      if i < sl.n.toNat ∧ i < sl.delta.length then segmentDelta a sl i else sl.segDelta i := by
  unfold Slot.segDelta computeDeltas
  simp only [List.getD_eq_getElem?_getD, List.getElem?_mapIdx]
  by_cases h : i < sl.delta.length
  · by_cases hn : i < sl.n.toNat <;> simp [h, hn]
  · simp [h]

/-- A segment's delta reads only the points and `N`. -/
theorem segmentDelta_congr (a : Arith) {x y : Slot} (i : Nat) (hp : x.pt = y.pt) (hn : x.n = y.n) :
    segmentDelta a x i = segmentDelta a y i := by
  simp [segmentDelta, Slot.point, hp, hn]

/-! ### The LED memory -/

theorem State.led_of_lt (s : State) {k : Nat} (h : k < s.leds.length) : s.led k = s.leds[k] := by
  simp [State.led, h]

@[simp] theorem State.setLeds_led (s : State) (ls : List Led) (k : Nat) :
    (s.setLeds ls).led k = ls.getD k Led.blank := rfl

@[simp] theorem placeLeds_length (p : Params) (sl : Slot) (ls : List Led) :
    (placeLeds p sl ls).length = ls.length := by
  simp [placeLeds]

/-- ACTIVATE writes LEDs `0 .. numWaves·L - 1` and no other (41_activation.md R104, R108). -/
theorem State.activate_led (s : State) (sl : U8) (k : Nat) :
    (s.activate sl).led k =
      if k < placedLeds s.params (s.slot sl.toNat) ∧ k < s.leds.length then
        placeLed s.params.arith (s.slot sl.toNat) (ledsPerWave s.params (s.slot sl.toNat))
          (k % ledsPerWave s.params (s.slot sl.toNat))
      else s.led k := by
  simp only [State.led, State.activate_leds, placeLeds, List.getD_eq_getElem?_getD, List.getElem?_mapIdx]
  by_cases h : k < s.leds.length
  · by_cases hp : k < placedLeds s.params (s.slot sl.toNat) <;> simp [h, hp]
  · simp [h]

/-- STEP on the LED memory: every entry steps (42_step.md R120). -/
theorem getD_map_stepLed (a : Arith) (sl : Slot) (ls : List Led) {k : Nat} (h : k < ls.length) :
    (ls.map (stepLed a sl)).getD k Led.blank = stepLed a sl (ls.getD k Led.blank) := by
  simp [h]

/-- Some LED is stale exactly when some entry of the array has `idx >= N` (42_step.md R121). -/
theorem anyStale_iff (sl : Slot) (s : State) :
    anyStale sl s.leds = true ↔ ∃ k < s.leds.length, sl.n.toNat ≤ (s.led k).idx.toNat := by
  simp only [anyStale, List.any_eq_true, decide_eq_true_eq, List.mem_iff_getElem]
  constructor
  · rintro ⟨l, ⟨k, hk, rfl⟩, hl⟩
    exact ⟨k, hk, by rwa [s.led_of_lt hk]⟩
  · rintro ⟨k, hk, hl⟩
    exact ⟨s.leds[k], ⟨k, hk, rfl⟩, by rwa [s.led_of_lt hk] at hl⟩

/-! ### What a step can do -/

/-- A step idles, runs a decoded command, answers an illegal word, or resets: nothing else. -/
theorem step_cases {s t : State} (h : step s = .next t) :
    (s.hostIn = [] ∧ t = s) ∨
    (∃ w rest i, s.hostIn = .command w :: rest ∧ decodeWord w = .ok i ∧ exec i s.popHost = .next t) ∨
    (∃ w rest e, s.hostIn = .command w :: rest ∧ decodeWord w = .error e ∧
      t = s.popHost.raiseError .illegalCommand) ∨
    (∃ e rest, s.hostIn = e :: rest ∧ (e = .reset ∨ ∃ w, e = .resetDuring w) ∧ t = s.popHost.applyReset) := by
  unfold step at h
  split at h
  · next he => exact .inl ⟨he, by simpa using h.symm⟩
  · next e rest he =>
    cases e with
    | command w =>
      simp only [runEvent, runWord] at h
      split at h
      · next i hi => exact .inr (.inl ⟨w, rest, i, he, hi, h⟩)
      · next e' hd =>
        exact .inr (.inr (.inl ⟨w, rest, e', he, hd, by simpa [answerIllegal] using h.symm⟩))
    | reset => exact .inr (.inr (.inr ⟨_, rest, he, .inl rfl, by simpa [runEvent] using h.symm⟩))
    | resetDuring w =>
      exact .inr (.inr (.inr ⟨_, rest, he, .inr ⟨w, rfl⟩, by simpa [runEvent] using h.symm⟩))

end Sys2Proof.Machine
end

