-- ==== Sys2Proof/Laws/Exec.lean ====
section
/-! SUPPORT. One inversion lemma per command: if it answers a next state, then one of these cases holds, guards
included. Later proofs cite these and unfold no meaning. -/

namespace Sys2Proof.Machine

@[simp] theorem slotUnallocated_iff (s : State) (sl : U8) :
    s.slotUnallocated sl = true ↔ s.used.toNat ≤ sl.toNat := by
  simp [State.slotUnallocated]

@[simp] theorem ledOutOfRange_iff (s : State) (k : U16) :
    s.ledOutOfRange k = true ↔ s.params.numLeds ≤ k.toNat := by
  simp [State.ledOutOfRange]

theorem configInvalid_iff (p : Params) (n : U8) (w : U16) :
    configInvalid p n w = true ↔
      n.toNat = 0 ∨ p.maxPoints < n.toNat ∨ w.toNat = 0 ∨ p.numLeds < w.toNat := by
  simp only [configInvalid, Bool.or_eq_true, beq_iff_eq, decide_eq_true_eq, or_assoc]

theorem execAddGradient_cases {n : U8} {w : U16} {s t : State} (h : execAddGradient n w s = .next t) :
    (configInvalid s.params n w = true ∧ t = s.raiseError .invalidConfig) ∨
    (configInvalid s.params n w = false ∧ s.used.toNat = s.params.maxGradients ∧
      t = s.raiseError .capacityExceeded) ∨
    (configInvalid s.params n w = false ∧ s.used.toNat ≠ s.params.maxGradients ∧
      t = ((s.setSlot s.used.toNat ((s.slot s.used.toNat).allocated n w)).setUsed (s.used + 1)).respond
        .ok (data8 s.used)) := by
  unfold execAddGradient at h
  split at h
  · next hc => exact .inl ⟨hc, by simpa using h.symm⟩
  · next hc =>
    split at h
    · next hu => exact .inr (.inl ⟨by simpa using hc, hu, by simpa using h.symm⟩)
    · next hu => exact .inr (.inr ⟨by simpa using hc, hu, by simpa using h.symm⟩)

theorem execAppendCp_cases {sl r g b dur : U8} {s t : State} (h : execAppendCp sl r g b dur s = .next t) :
    (s.used.toNat ≤ sl.toNat ∧ t = s.raiseError .indexOutOfRange) ∨
    (sl.toNat < s.used.toNat ∧ (s.slot sl.toNat).count = (s.slot sl.toNat).n ∧
      t = s.raiseError .capacityExceeded) ∨
    (sl.toNat < s.used.toNat ∧ (s.slot sl.toNat).count ≠ (s.slot sl.toNat).n ∧ dur = 0 ∧
      t = s.raiseError .invalidDuration) ∨
    (sl.toNat < s.used.toNat ∧ (s.slot sl.toNat).count ≠ (s.slot sl.toNat).n ∧ dur ≠ 0 ∧
      t = (s.appendPoint sl { r := r, g := g, b := b, dur := dur }).respond .ok 0) := by
  unfold execAppendCp at h
  split at h
  · next hs => exact .inl ⟨by simpa using hs, by simpa using h.symm⟩
  · next hs =>
    have hs : sl.toNat < s.used.toNat := by simpa using hs
    split at h
    · next hc => exact .inr (.inl ⟨hs, hc, by simpa using h.symm⟩)
    · next hc =>
      split at h
      · next hd => exact .inr (.inr (.inl ⟨hs, hc, hd, by simpa using h.symm⟩))
      · next hd => exact .inr (.inr (.inr ⟨hs, hc, hd, by simpa using h.symm⟩))

theorem execStartGradient_cases {sl : U8} {s t : State} (h : execStartGradient sl s = .next t) :
    (s.used.toNat ≤ sl.toNat ∧ t = s.raiseError .indexOutOfRange) ∨
    (sl.toNat < s.used.toNat ∧ (s.slot sl.toNat).life ≠ .ready ∧ t = s.raiseError .notReady) ∨
    (sl.toNat < s.used.toNat ∧ (s.slot sl.toNat).life = .ready ∧ t = (s.activate sl).respond .ok 0) := by
  unfold execStartGradient at h
  split at h
  · next hs => exact .inl ⟨by simpa using hs, by simpa using h.symm⟩
  · next hs =>
    have hs : sl.toNat < s.used.toNat := by simpa using hs
    split at h
    · next hl => exact .inr (.inl ⟨hs, hl, by simpa using h.symm⟩)
    · next hl => exact .inr (.inr ⟨hs, by simpa using hl, by simpa using h.symm⟩)

theorem execStep_cases {s t : State} (h : execStep s = .next t) :
    (s.active = activeNone ∧ t = s.raiseError .notReady) ∨
    (s.active ≠ activeNone ∧ anyStale (s.slot s.active.toNat) s.leds = true ∧
      t = s.raiseError .stalePhase) ∨
    (s.active ≠ activeNone ∧ anyStale (s.slot s.active.toNat) s.leds = false ∧
      t = (s.setLeds (s.leds.map (stepLed s.params.arith (s.slot s.active.toNat)))).respond .ok 0) := by
  unfold execStep at h
  split at h
  · next ha => exact .inl ⟨ha, by simpa using h.symm⟩
  · next ha =>
    split at h
    · next hs => exact .inr (.inl ⟨ha, hs, by simpa using h.symm⟩)
    · next hs => exact .inr (.inr ⟨ha, by simpa using hs, by simpa using h.symm⟩)

theorem execReadLed_cases {k : U16} {ch : BitVec 2} {s t : State} (h : execReadLed k ch s = .next t) :
    (channelOf ch (s.led k.toNat) = none ∧ t = s.raiseError .illegalCommand) ∨
    (∃ v, channelOf ch (s.led k.toNat) = some v ∧
      ((s.params.numLeds ≤ k.toNat ∧ t = s.raiseError .indexOutOfRange) ∨
       (k.toNat < s.params.numLeds ∧ s.active = activeNone ∧ t = s.raiseError .notReady) ∨
       (k.toNat < s.params.numLeds ∧ s.active ≠ activeNone ∧ t = s.respond .ok (data8 v)))) := by
  unfold execReadLed at h
  split at h
  · next hc => exact .inl ⟨hc, by simpa using h.symm⟩
  · next v hc =>
    refine .inr ⟨v, hc, ?_⟩
    split at h
    · next hk => exact .inl ⟨by simpa using hk, by simpa using h.symm⟩
    · next hk =>
      have hk : k.toNat < s.params.numLeds := by simpa using hk
      split at h
      · next ha => exact .inr (.inl ⟨hk, ha, by simpa using h.symm⟩)
      · next ha => exact .inr (.inr ⟨hk, ha, by simpa using h.symm⟩)

theorem execReadPhase_cases {k : U16} {s t : State} (h : execReadPhase k s = .next t) :
    (s.params.numLeds ≤ k.toNat ∧ t = s.raiseError .indexOutOfRange) ∨
    (k.toNat < s.params.numLeds ∧ s.active = activeNone ∧ t = s.raiseError .notReady) ∨
    (k.toNat < s.params.numLeds ∧ s.active ≠ activeNone ∧
      t = s.respond .ok (dataBytes 0 (s.led k.toNat).idx (s.led k.toNat).sc)) := by
  unfold execReadPhase at h
  split at h
  · next hk => exact .inl ⟨by simpa using hk, by simpa using h.symm⟩
  · next hk =>
    have hk : k.toNat < s.params.numLeds := by simpa using hk
    split at h
    · next ha => exact .inr (.inl ⟨hk, ha, by simpa using h.symm⟩)
    · next ha => exact .inr (.inr ⟨hk, ha, by simpa using h.symm⟩)

/-- The two things APPEND_CP does past its checks (40_gradient_load.md R88, R91). -/
theorem appendPoint_cases (s : State) (sl : U8) (p : ControlPoint) :
    ((s.slot sl.toNat).count.toNat + 1 = (s.slot sl.toNat).n.toNat ∧
      s.appendPoint sl p =
        (s.setSlot sl.toNat (((s.slot sl.toNat).appended p).completed s.params.arith)).activate sl) ∨
    ((s.slot sl.toNat).count.toNat + 1 ≠ (s.slot sl.toNat).n.toNat ∧
      s.appendPoint sl p = s.setSlot sl.toNat ((s.slot sl.toNat).appended p)) := by
  unfold State.appendPoint
  by_cases h : (s.slot sl.toNat).count.toNat + 1 = (s.slot sl.toNat).n.toNat
  · exact .inl ⟨h, by simp [Slot.lastAppend, h]⟩
  · exact .inr ⟨h, by simp [Slot.lastAppend, h]⟩

end Sys2Proof.Machine
end

