-- ==== Sys2Proof/Laws/PerInstr.lean ====
section
/-! SUPPORT. Statements about every command as syntax, one lemma per constructor of `Instr`. -/

namespace Sys2Proof.Laws

/-- The command's word matches its own row of 30_encoding.md R69: every must-be-zero bit of it is 0 and its
opcode byte is the row's. -/
def MatchesItsRow.Statement (i : Instr) : Prop := encode i &&& maskWord i.op = matchWord i.op

theorem MatchesItsRow.nop : MatchesItsRow.Statement .nop := by
  simp [Statement, encode, Instr.op, maskWord_eq, matchWord_eq, packFields_and, opByte]

theorem MatchesItsRow.addGradient (n : U8) (w : U16) : MatchesItsRow.Statement (.addGradient n w) := by
  simp [Statement, encode, Instr.op, maskWord_eq, matchWord_eq, packFields_and, opByte]

theorem MatchesItsRow.appendCp (sl r g b dur : U8) :
    MatchesItsRow.Statement (.appendCp sl r g b dur) := by
  simp [Statement, encode, Instr.op, maskWord_eq, matchWord_eq, packFields_and, opByte]

theorem MatchesItsRow.startGradient (sl : U8) : MatchesItsRow.Statement (.startGradient sl) := by
  simp [Statement, encode, Instr.op, maskWord_eq, matchWord_eq, packFields_and, opByte]

theorem MatchesItsRow.step : MatchesItsRow.Statement .step := by
  simp [Statement, encode, Instr.op, maskWord_eq, matchWord_eq, packFields_and, opByte]

theorem MatchesItsRow.readLed (k : U16) (ch : BitVec 2) : MatchesItsRow.Statement (.readLed k ch) := by
  have h : ∀ c : BitVec 2, (0#6 ++ c : U8) &&& 0xFC = 0 := by decide
  simp only [Statement, encode, Instr.op, maskWord_eq, matchWord_eq, packFields_and, h]
  simp [opByte]

theorem MatchesItsRow.readPhase (k : U16) : MatchesItsRow.Statement (.readPhase k) := by
  simp [Statement, encode, Instr.op, maskWord_eq, matchWord_eq, packFields_and, opByte]

theorem MatchesItsRow.readStatus : MatchesItsRow.Statement .readStatus := by
  simp [Statement, encode, Instr.op, maskWord_eq, matchWord_eq, packFields_and, opByte]

end Sys2Proof.Laws
end

