-- ==== Sys2Proof/Tests/Slice0.lean ====
section
/-! SUPPORT. Tests of the model against the vectors of 95_test_vectors.md and the encodings of 30_encoding.md,
and for every statement with hypotheses a witness that meets them. -/

namespace Sys2Proof.Tests

open Sys2Proof Sys2Proof.Machine

-- The tests are evaluated one after another: side by side, each holds a thread of its own.
set_option Elab.async false

/-! ### Helpers -/

/-- The state an outcome answers, or `s` where it answers none. -/
def nextOr (s : State) : Host.Outcome State Fault Refusal → State
  | .next t => t
  | .fault _ => s
  | .refused _ => s

/-- The outcome is a next state. -/
def isNext : Host.Outcome State Fault Refusal → Bool
  | .next _ => true
  | .fault _ => false
  | .refused _ => false

theorem eq_next_of_isNext (s : State) {o : Host.Outcome State Fault Refusal} (h : isNext o = true) :
    o = .next (nextOr s o) := by
  cases o <;> simp_all [isNext, nextOr]

/-- `s` after the host has sent a word and the block has run it. -/
def send (w : CmdWord) (s : State) : State := nextOr s (step (presentWord w s))

/-- `s` after a list of command words. -/
def sendAll : List CmdWord → State → State
  | [], s => s
  | w :: ws, s => sendAll ws (send w s)

/-- LEDs as numbers: r, g, b, idx, sc. -/
def ledNats (l : Led) : List Nat := [l.r.toNat, l.g.toNat, l.b.toNat, l.idx.toNat, l.sc.toNat]

/-- A command's response word on a state. -/
def response (i : Instr) (s : State) : Option RspWord := (nextOr s (exec i s)).hostOut.getLast?

/-- The red-to-blue gradient of 95_test_vectors.md section 1.1, up to its second append. -/
def redToBlue : List CmdWord := [0x0100000400000002, 0x02000000FF000004, 0x020000000000FF04]

def sReset : State := State.resetWith { numLeds := 4, maxPoints := 2, maxGradients := 1, arith := .exact }

/-- A FILLING slot with no point yet. -/
def sAlloc : State := sendAll (redToBlue.take 1) sReset

/-- A FILLING slot with one of its two points. -/
def sFilling : State := sendAll (redToBlue.take 2) sReset

/-- The slot READY and active (program P1 after command 3), with the responses dropped. -/
def sReady : State := { sendAll redToBlue sReset with hostOut := [] }

/-- Program P5's placement, under a given arithmetic. -/
def sSeven (a : Arith) : State :=
  sendAll [0x0100000400000002, 0x0200000000000007, 0x02000000FF000007]
    (State.resetWith { numLeds := 4, maxPoints := 2, maxGradients := 1, arith := a })

/-- Two slots on five LEDs, the second, of one point and width 2, active: LED 4 is trailing and stale. -/
def sStale : State :=
  sendAll [0x0100000500000002, 0x0100000200000001, 0x02000000FF000005, 0x020000000000FF05,
      0x02010000C8643203]
    (State.resetWith { numLeds := 5, maxPoints := 2, maxGradients := 2, arith := .exact })

/-! ### WellFormed -/

theorem test_channel_three_is_ill_formed : (Instr.readLed 0 3).wellFormed = false := by decide

theorem test_channels_are_well_formed :
    (Instr.readLed 65535 0).wellFormed && (Instr.readLed 0 1).wellFormed &&
      (Instr.readLed 0 2).wellFormed = true := by decide

/-! ### Decode: words written from 30_encoding.md R65, R82 and 95_test_vectors.md section 2 -/

theorem test_decode_nop : decodeWord 0x0000000000000000 = .ok .nop := by decide

theorem test_decode_addGradient : decodeWord 0x0100FFFE000000FD = .ok (.addGradient 253 65534) := by decide

theorem test_decode_appendCp : decodeWord 0x02010000C8643203 = .ok (.appendCp 1 200 100 50 3) := by decide

theorem test_decode_startGradient : decodeWord 0x0301000000000000 = .ok (.startGradient 1) := by decide

theorem test_decode_step : decodeWord 0x0400000000000000 = .ok .step := by decide

theorem test_decode_readLed : decodeWord 0x0500000601000000 = .ok (.readLed 6 1) := by decide

theorem test_decode_readPhase : decodeWord 0x0600FFFF00000000 = .ok (.readPhase 65535) := by decide

theorem test_decode_readStatus : decodeWord 0x0700000000000000 = .ok .readStatus := by decide

theorem test_decode_reserved_opcode :
    decodeWord 0xFFFFFFFFFFFFFFFF = .error .reservedOpcode ∧
      decodeWord 0x0800000000000000 = .error .reservedOpcode := by decide

theorem test_decode_mbz :
    ([0x0000000000000001, 0x0400000000000001, 0x0101000400000002, 0x0100000400000102, 0x0200000100000004,
      0x0300000000000001, 0x0500000304000000, 0x0500000300000001, 0x0501000300000000, 0x0600000301000000,
      0x0780000000000000] : List CmdWord).all (fun w => decodeWord w = .error .mbzBit) = true := by decide

theorem test_decode_channel_three : decodeWord 0x0500000303000000 = .error .reservedChannel := by decide

theorem test_decode_bytes_least_significant_first :
    decodeBytes [0x03, 0x32, 0x64, 0xC8, 0, 0, 1, 2, 0xAA] = .ok (.appendCp 1 200 100 50 3, [0xAA]) := by decide

theorem test_encode_examples :
    encode (.appendCp 0 255 0 0 4) = 0x02000000FF000004 ∧ encode (.readLed 3 2) = 0x0500000302000000 ∧
      encode (.addGradient 2 4) = 0x0100000400000002 := by decide

theorem test_table_word_is_fetched : decodeTableWord 64 0x0600000300000000 = some (.readPhase 3) := by decide

/-- Each row's mask of R69 is the opcode byte and the must-be-zero bits of its format of R65. -/
theorem test_mask_is_opcode_and_mbz (op : Op) :
    maskWord op = 0xFF00000000000000 ||| mbzBits (formatOf op) := by
  cases op <;> decide

/-! ### Arithmetic: 95_test_vectors.md section 3.1 -/

theorem test_delta_binary32_bits :
    [(255, 0, 4), (0, 255, 7), (0, 100, 255), (0, 1, 255), (255, 0, 1), (10, 9, 2), (5, 5, 9)].map
      (fun x : U8 × U8 × U8 => bits32 (deltaChannel .binary32 x.1 x.2.1 x.2.2)) =
    [0xC27F0000, 0x4211B6DB, 0x3EC8C8C9, 0x3B808081, 0xC37F0000, 0xBF000000, 0x00000000] := by
  decide +kernel

theorem test_round_ties_upwards : roundD (1 / 2) = 1 ∧ roundD (-1 / 2) = 0 ∧ roundD (255 / 2) = 128 := by
  decide +kernel

/-! ### Loading and activation -/

/-- 40_gradient_load.md R86's example. -/
theorem test_addGradient_allocates :
    sAlloc.used = 1 ∧ (sAlloc.slot 0).life = .filling ∧ (sAlloc.slot 0).n = 2 ∧ (sAlloc.slot 0).w = 4 ∧
      (sAlloc.slot 0).count = 0 := by decide

/-- Vectors L1 to L4 and L6, L7: InvalidConfig beats CapacityExceeded. -/
theorem test_addGradient_refuses :
    [response (.addGradient 0 4) sReset, response (.addGradient 3 4) sReset, response (.addGradient 1 0) sReset,
      response (.addGradient 1 5) sReset, response (.addGradient 0 4) sAlloc, response (.addGradient 1 4) sAlloc]
    = [some 0x05000000, some 0x05000000, some 0x05000000, some 0x05000000, some 0x05000000, some 0x01000000] := by
  decide

/-- Vectors L10, L11 and L15: the order of APPEND_CP's errors. -/
theorem test_appendCp_errors :
    [response (.appendCp 1 0 0 0 0) sAlloc, response (.appendCp 0 1 2 3 0) sAlloc,
      response (.appendCp 0 1 2 3 0) sReady]
    = [some 0x03000000, some 0x02000000, some 0x01000000] := by
  decide +kernel

/-- The placement of 41_activation.md R111, and the delta table of R101's example. -/
theorem test_appendCp_completes :
    sReady.active = 0 ∧ sReady.leds.map ledNats =
      [[255, 0, 0, 0, 0], [128, 0, 128, 0, 2], [0, 0, 255, 1, 0], [128, 0, 128, 1, 2]] ∧
    (sReady.slot 0).segDelta 0 = { dr := -255 / 4, dg := 0, db := 255 / 4 } := by
  decide +kernel

/-- Program P5: the two arithmetics place LED 1 differently (128 and 127). -/
theorem test_placement_arithmetics_differ :
    ledNats ((sSeven .exact).led 1) = [128, 0, 0, 0, 3] ∧
      ledNats ((sSeven .binary32).led 1) = [127, 0, 0, 0, 3] := by
  decide +kernel

/-- Vector 3.4, first case, under BINARY32: LED 3 gets step count 3, not 4. -/
theorem test_placement_binary32_step_count :
    ledNats ((sendAll [0x0100000500000003, 0x0200000000000005, 0x02000000FF000005, 0x0200000000000005]
      (State.resetWith { numLeds := 5, maxPoints := 3, maxGradients := 1, arith := .binary32 })).led 3) =
      [51, 0, 0, 1, 3] := by
  decide +kernel

/-- Vectors L8, L9 and L16. -/
theorem test_startGradient :
    response (.startGradient 0) sAlloc = some 0x04000000 ∧
      response (.startGradient 1) sAlloc = some 0x03000000 ∧
      (nextOr sReset (exec (.startGradient 0) (send 0x0400000000000000 sReady))).leds = sReady.leds := by
  decide +kernel

/-- Program P2's trailing LED: slot 1 places LEDs 0 to 3 and LED 4 keeps its color and phase. -/
theorem test_trailing_led_kept :
    sStale.leds.map ledNats = [[200, 100, 50, 0, 0], [200, 100, 50, 0, 1], [200, 100, 50, 0, 0],
      [200, 100, 50, 0, 1], [153, 0, 102, 1, 3]] := by
  decide +kernel

/-! ### STEP -/

/-- Program P1's strip after one STEP (95_test_vectors.md section 8.1). -/
theorem test_step_strip :
    (send 0x0400000000000000 sReady).leds.map ledNats =
      [[191, 0, 64, 0, 1], [64, 0, 192, 0, 3], [64, 0, 191, 1, 1], [192, 0, 64, 1, 3]] := by
  decide +kernel

/-- Vector S14, and S16: StalePhase sets FAULT bit 0 and moves no LED. -/
theorem test_step_errors :
    response .step sReset = some 0x04000000 ∧ response .step sStale = some 0x07000000 ∧
      (nextOr sReset (exec .step sStale)).fault = 0x01 ∧
      (nextOr sReset (exec .step sStale)).leds = sStale.leds := by
  decide +kernel

/-! ### Readout, illegal words and reset -/

/-- Vectors RD1, RD3, RD4, RD11 and RD12. -/
theorem test_readLed :
    [response (.readLed 1 0) sReady, response (.readLed 2 2) sReady, response (.readLed 4 0) sReady,
      response (.readLed 0 0) sReset, response (.readLed 4 0) sReset]
    = [some 0x00000080, some 0x000000FF, some 0x03000000, some 0x04000000, some 0x03000000] := by
  decide +kernel

/-- Vectors RD6 to RD8 and RD13. -/
theorem test_readPhase :
    [response (.readPhase 1) sReady, response (.readPhase 3) sReady, response (.readPhase 4) sReady,
      response (.readPhase 0) sReset]
    = [some 0x00000002, some 0x00000102, some 0x03000000, some 0x04000000] := by
  decide +kernel

/-- Vectors RD9 and RD14. -/
theorem test_readStatus :
    response .readStatus sReady = some 0x00010000 ∧ response .readStatus sReset = some 0x0000FF00 := by
  decide +kernel

/-- Vector RD10. -/
theorem test_nop : response .nop sReady = some 0x00000000 := by decide +kernel

/-- Vector RD15: an illegal word, then READ_STATUS. -/
theorem test_illegal_word :
    (sendAll [0x0500000003000000, 0x0700000000000000] sReset).hostOut = [0x06000000, 0x0000FF02] := by decide

/-- Vector X1, and a reset that abandons a command in flight (60_exceptions.md R162): no response. -/
theorem test_reset :
    nextOr sReady (step { sReady with hostIn := [.reset] }) = sReset ∧
      nextOr sReady (step { sReady with hostIn := [.resetDuring 0x0400000000000000] }) = sReset := by
  decide +kernel

/-! ### Assembler: 30_encoding.md R80 to R82 -/

theorem test_assemble_commands :
    assembleWords ["ADD_GRADIENT 2, 4 ; slot 0".toList, "".toList, "APPEND_CP 0, 0xFF, 0, 0, 4".toList,
      "READ_LED 3, b".toList] = .ok [0x0100000400000002, 0x02000000FF000004, 0x0500000302000000] := by
  decide +kernel

theorem test_assemble_pseudo :
    assemble ["GET_GREEN 6".toList, "STEPN 2".toList, "GRADIENT 0, 1, 3, (10,20,30,3)".toList] =
      .ok [.readLed 6 1, .step, .step, .addGradient 1 3, .appendCp 0 10 20 30 3] := by
  decide +kernel

theorem test_assemble_rejects :
    assemble ["START_GRADIENT 256".toList] = .error .doesNotFit ∧
      assemble ["READ_LED 0, x".toList] = .error .badChannel ∧
      assemble ["JUMP 1".toList] = .error .unknownMnemonic := by
  decide +kernel

/-! ### The invariant on the states above -/

theorem sReset_inv : sReset.Inv where
  legal := by decide
  led_count := by decide
  slot_count := by decide
  used_le := by decide
  slot_arrays := by decide
  slot_empty := by decide
  slot_loaded := fun i hi => absurd hi (Nat.not_lt_zero i)
  active_ready := by decide
  fault_reserved := by decide

theorem sAlloc_inv : sAlloc.Inv where
  legal := by decide
  led_count := by decide
  slot_count := by decide
  used_le := by decide
  slot_arrays := by decide
  slot_empty := by decide
  slot_loaded := fun i hi => by
    obtain rfl : i = 0 := Nat.lt_one_iff.mp hi
    exact { n_pos := by decide, n_le := by decide, w_pos := by decide, w_le := by decide,
            count_le := by decide, life_eq := by decide, dur_pos := by decide,
            deltas := fun h => absurd h (by decide) }
  active_ready := by decide
  fault_reserved := by decide

theorem sFilling_inv : sFilling.Inv where
  legal := by decide
  led_count := by decide
  slot_count := by decide
  used_le := by decide
  slot_arrays := by decide
  slot_empty := by decide
  slot_loaded := fun i hi => by
    obtain rfl : i = 0 := Nat.lt_one_iff.mp hi
    exact { n_pos := by decide, n_le := by decide, w_pos := by decide, w_le := by decide,
            count_le := by decide, life_eq := by decide, dur_pos := by decide,
            deltas := fun h => absurd h (by decide) }
  active_ready := by decide
  fault_reserved := by decide

theorem sReady_loaded : (sReady.slot 0).Loaded sReady.params where
  n_pos := by decide +kernel
  n_le := by decide +kernel
  w_pos := by decide +kernel
  w_le := by decide +kernel
  count_le := by decide +kernel
  life_eq := by decide +kernel
  dur_pos := by decide +kernel
  deltas := by decide +kernel

theorem sReady_inv : sReady.Inv where
  legal := by decide +kernel
  led_count := by decide +kernel
  slot_count := by decide +kernel
  used_le := by decide +kernel
  slot_arrays := by decide +kernel
  slot_empty := by decide +kernel
  slot_loaded := fun i hi => by
    have hu : sReady.used.toNat = 1 := by decide +kernel
    obtain rfl : i = 0 := by omega
    exact sReady_loaded
  active_ready := by decide +kernel
  fault_reserved := by decide +kernel

theorem sStale_loaded : ∀ i < 2, (sStale.slot i).Loaded sStale.params := by
  intro i hi
  obtain rfl | rfl : i = 0 ∨ i = 1 := by omega
  all_goals
    exact { n_pos := by decide +kernel, n_le := by decide +kernel, w_pos := by decide +kernel,
            w_le := by decide +kernel, count_le := by decide +kernel, life_eq := by decide +kernel,
            dur_pos := by decide +kernel, deltas := by decide +kernel }

theorem sStale_inv : sStale.Inv where
  legal := by decide +kernel
  led_count := by decide +kernel
  slot_count := by decide +kernel
  used_le := by decide +kernel
  slot_arrays := by decide +kernel
  slot_empty := by decide +kernel
  slot_loaded := fun i hi => by
    have hu : sStale.used.toNat = 2 := by decide +kernel
    exact sStale_loaded i (by omega)
  active_ready := by decide +kernel
  fault_reserved := by decide +kernel

theorem reachable_send {p : Params} {s : State} (w : CmdWord) (h : Reachable p s) (hi : s.hostIn = [])
    (hn : isNext (step (presentWord w s)) = true) : Reachable p (send w s) := by
  refine .step _ _ (.present s (.command w) h) ?_
  rw [show ({ s with hostIn := s.hostIn ++ [HostEvent.command w] } : State) = presentWord w s by
    simp [presentWord, hi]]
  exact eq_next_of_isNext s hn

/-- The state a run reaches by the three commands of `redToBlue`. -/
def sRun : State := send 0x020000000000FF04 (send 0x02000000FF000004 (send 0x0100000400000002 sReset))

theorem sRun_reachable : Reachable sReset.params sRun := by
  have h1 := reachable_send (s := sReset) 0x0100000400000002 .reset (by decide) (by decide)
  have h2 := reachable_send 0x02000000FF000004 h1 (by decide) (by decide)
  exact reachable_send 0x020000000000FF04 h2 (by decide +kernel) (by decide +kernel)

/-! ### Witnesses: for each statement with hypotheses, a state and operands that meet them together -/

/-- The invariant does not read the host's queue. -/
theorem inv_with_hostIn {s : State} (h : s.Inv) (es : List HostEvent) : ({ s with hostIn := es } : State).Inv :=
  ⟨h.legal, h.led_count, h.slot_count, h.used_le, h.slot_arrays, h.slot_empty, h.slot_loaded, h.active_ready,
    h.fault_reserved⟩

/-- The binary32 strip of program P5 has its slot loaded. -/
theorem sSeven_loaded : ((sSeven .binary32).slot 0).Loaded (sSeven .binary32).params where
  n_pos := by decide +kernel
  n_le := by decide +kernel
  w_pos := by decide +kernel
  w_le := by decide +kernel
  count_le := by decide +kernel
  life_eq := by decide +kernel
  dur_pos := by decide +kernel
  deltas := by decide +kernel

theorem witness_DecodeEncodeRoundTrip : (Instr.readLed 65535 2).wellFormed = true := by decide

theorem witness_EncodeDecodeRoundTrip : decodeWord 0x0500FFFF02000000 = .ok (.readLed 65535 2) := by decide

theorem witness_TransportIsLittleEndian : 7 < 8 ∧ 3 < 4 ∧ ([1, 2, 3, 4, 5, 6, 7] : List U8).length < 8 := by
  decide

theorem witness_StepRunsDecodedCommand :
    ({ sReset with hostIn := [.command 0x0400000000000000, .reset] } : State).hostIn =
      .command 0x0400000000000000 :: [.reset] ∧
    decodeWord 0x0400000000000000 = .ok .step ∧ decodeTableWord 64 0x0400000000000000 = some .step := by decide

theorem witness_IllegalWordAnswered :
    ({ sReset with hostIn := [.command 0x0800000000000000] } : State).hostIn =
      .command 0x0800000000000000 :: [] ∧ decodeWord 0x0800000000000000 = .error .reservedOpcode := by decide

theorem witness_ResetEventRestoresReset (w : CmdWord) :
    (HostEvent.resetDuring w = .reset ∨ ∃ v, HostEvent.resetDuring w = .resetDuring v) ∧
      ({ sReady with hostIn := [.resetDuring w] } : State).hostIn = .resetDuring w :: [] :=
  ⟨.inr ⟨w, rfl⟩, rfl⟩

theorem witness_ResetSendsNoResponse :
    ({ sReady with hostIn := [.resetDuring 0x0400000000000000, .reset] } : State).hostIn =
      .resetDuring 0x0400000000000000 :: [.reset] := rfl

theorem witness_IdleStepHoldsState : sReset.hostIn = [] := by decide

theorem witness_OneResponsePerCommand :
    ({ sReset with hostIn := [.command 0] } : State).hostIn = .command 0 :: [] := by decide

theorem witness_ReadStatusResult : sReady.fault &&& 0xFC = 0 := by decide +kernel

/-- The first slot not allocated; a full slot; a slot with room and duration 0. -/
theorem witness_AppendErrors :
    sReady.used.toNat ≤ (1 : U8).toNat ∧
    ((0 : U8).toNat < sReady.used.toNat ∧ (sReady.slot (0 : U8).toNat).count = (sReady.slot (0 : U8).toNat).n) ∧
    ((0 : U8).toNat < sAlloc.used.toNat ∧
      (sAlloc.slot (0 : U8).toNat).count ≠ (sAlloc.slot (0 : U8).toNat).n) := by decide +kernel

/-- The first LED out of range; the last LED with no slot active; the last LED with one active. -/
theorem witness_ReadLedResult :
    (2 : BitVec 2) ≠ 3 ∧ sReset.params.numLeds ≤ (4 : U16).toNat ∧
      ((3 : U16).toNat < sReset.params.numLeds ∧ sReset.active = 0xFF) ∧
      ((3 : U16).toNat < sReady.params.numLeds ∧ sReady.active ≠ 0xFF) ∧
      (isNext (step { sReady with hostIn := [.command 0x0300000000000000] }) = true ∧ sReady.active ≠ 0xFF) := by
  decide +kernel

theorem witness_ReadPhaseResult :
    sReset.params.numLeds ≤ (4 : U16).toNat ∧
      ((3 : U16).toNat < sReset.params.numLeds ∧ sReset.active = 0xFF) ∧
      ((3 : U16).toNat < sReady.params.numLeds ∧ sReady.active ≠ 0xFF) := by decide +kernel

/-- Each way to be out of range, at its boundary; a full container with operands in range; a free slot. -/
theorem witness_AddGradientResult :
    ((0 : U8).toNat = 0 ∧ sAlloc.params.maxPoints < (3 : U8).toNat ∧ (0 : U16).toNat = 0 ∧
      sAlloc.params.numLeds < (5 : U16).toNat) ∧
    (1 ≤ (2 : U8).toNat ∧ (2 : U8).toNat ≤ sAlloc.params.maxPoints ∧ 1 ≤ (4 : U16).toNat ∧
      (4 : U16).toNat ≤ sAlloc.params.numLeds ∧ sAlloc.used.toNat = sAlloc.params.maxGradients) ∧
    (sReset.Inv ∧ 1 ≤ (2 : U8).toNat ∧ (2 : U8).toNat ≤ sReset.params.maxPoints ∧ 1 ≤ (4 : U16).toNat ∧
      (4 : U16).toNat ≤ sReset.params.numLeds ∧ sReset.used.toNat ≠ sReset.params.maxGradients) :=
  ⟨by decide, by decide, sReset_inv, by decide⟩

/-- The first slot not allocated; a slot not READY; a READY slot. -/
theorem witness_StartGradientResult :
    sAlloc.used.toNat ≤ (1 : U8).toNat ∧
    ((0 : U8).toNat < sAlloc.used.toNat ∧ (sAlloc.slot (0 : U8).toNat).life ≠ .ready) ∧
    (sReady.Inv ∧ (0 : U8).toNat < sReady.used.toNat ∧ (sReady.slot (0 : U8).toNat).life = .ready) :=
  ⟨by decide, by decide, sReady_inv, by decide +kernel⟩

theorem witness_FaultRegisterSticky :
    step { sReset with hostIn := [.command 0x0400000000000000] } = .next (send 0x0400000000000000 sReset) ∧
      step { sReset with hostIn := [.reset] } = .next sReset := ⟨rfl, rfl⟩

theorem witness_AppendStoresPoint :
    sAlloc.Inv ∧ (0 : U8).toNat < sAlloc.used.toNat ∧
      (sAlloc.slot (0 : U8).toNat).count.toNat + 1 < (sAlloc.slot (0 : U8).toNat).n.toNat ∧ (1 : U8) ≠ 0 :=
  ⟨sAlloc_inv, by decide, by decide, by decide⟩

theorem witness_AppendCompletesSlot :
    sFilling.Inv ∧ (0 : U8).toNat < sFilling.used.toNat ∧
      (sFilling.slot (0 : U8).toNat).count.toNat + 1 = (sFilling.slot (0 : U8).toNat).n.toNat ∧ (255 : U8) ≠ 0 :=
  ⟨sFilling_inv, by decide, by decide, by decide⟩

/-- One state for each of STEP's three outcomes. -/
theorem witness_StepResult :
    sReset.active = 0xFF ∧
    (sStale.Inv ∧ sStale.active ≠ 0xFF ∧
      ∃ k < sStale.params.numLeds, (sStale.slot sStale.active.toNat).n.toNat ≤ (sStale.led k).idx.toNat) ∧
    (sReady.Inv ∧ sReady.active ≠ 0xFF ∧
      ∀ k < sReady.params.numLeds, (sReady.led k).idx.toNat < (sReady.slot sReady.active.toNat).n.toNat) :=
  ⟨by decide, ⟨sStale_inv, by decide +kernel, by decide +kernel⟩,
    ⟨sReady_inv, by decide +kernel, by decide +kernel⟩⟩

/-- A word refused as stale, one refused as illegal, and one refused with no FAULT bit. -/
theorem witness_ErrorsChangeOnlyFaultBits :
    ({ sStale with hostIn := [.command 0x0400000000000000] } : State).hostIn = .command 0x0400000000000000 :: [] ∧
    ({ sReset with hostIn := [.command 0x0800000000000000] } : State).hostIn = .command 0x0800000000000000 :: [] ∧
    ({ sReset with hostIn := [.command 0x0400000000000000] } : State).hostIn = .command 0x0400000000000000 :: [] ∧
    (send 0x0400000000000000 sStale).hostOut.getLast?.map rspStatus = some 0x07 ∧
    (send 0x0800000000000000 sReset).hostOut.getLast?.map rspStatus = some 0x06 ∧
    (send 0x0400000000000000 sReset).hostOut.getLast?.map rspStatus = some 0x04 :=
  ⟨rfl, rfl, rfl, by decide +kernel, by decide +kernel, by decide +kernel⟩

theorem witness_ErrorCodesPerCommand :
    (0x05 : U8) ≠ 0 ∧ decodeWord 0x0800000000000000 = .error .reservedOpcode ∧
      step { sReset with hostIn := [.command 0x0800000000000000] } = .next (send 0x0800000000000000 sReset) :=
  ⟨by decide, by decide, rfl⟩

theorem witness_WriteSetsPerCommand :
    (Instr.addGradient 2 4).wellFormed = true ∧
      exec (.addGradient 2 4) sReset = .next (nextOr sReset (exec (.addGradient 2 4) sReset)) :=
  ⟨by decide, eq_next_of_isNext _ (by decide)⟩

theorem witness_ActiveChangesOnlyByActivation :
    ({ sFilling with hostIn := [.command 0x020000000000FF04] } : State).Inv ∧
      isNext (step { sFilling with hostIn := [.command 0x020000000000FF04] }) = true :=
  ⟨inv_with_hostIn sFilling_inv _, by decide⟩

theorem witness_ReadySlotNeverChanges :
    ({ sReady with hostIn := [.command 0x0400000000000000] } : State).Inv ∧
      isNext (step { sReady with hostIn := [.command 0x0400000000000000] }) = true ∧
      0 < sReady.params.maxGradients ∧ (sReady.slot 0).life = .ready :=
  ⟨inv_with_hostIn sReady_inv _, by decide +kernel, by decide +kernel, by decide +kernel⟩

theorem witness_SlotLifecycle :
    ({ sReset with hostIn := [.command 0x0100000400000002] } : State).Inv ∧
      isNext (step { sReset with hostIn := [.command 0x0100000400000002] }) = true ∧
      0 < sReset.params.maxGradients ∧
    (sFilling.Inv ∧ isNext (exec (.appendCp 0 1 2 3 4) sFilling) = true ∧ (4 : U8) ≠ 0 ∧
      (sFilling.slot (0 : U8).toNat).life = .filling ∧
      ((nextOr sFilling (exec (.appendCp 0 1 2 3 4) sFilling)).slot (0 : U8).toNat).life = .ready) ∧
    (sReady.Inv ∧ isNext (exec (.appendCp 0 1 2 3 4) sReady) = true ∧
      (sReady.slot (0 : U8).toNat).life = .ready) ∧
    (sReset.Inv ∧ exec (.addGradient 2 4) sReset = .next (nextOr sReset (exec (.addGradient 2 4) sReset)) ∧
      (nextOr sReset (exec (.addGradient 2 4) sReset)).used ≠ sReset.used) ∧
    step { sReset with hostIn := [.reset] } = .next sReset :=
  ⟨inv_with_hostIn sReset_inv _, by decide, by decide,
    ⟨sFilling_inv, by decide, by decide, by decide, by decide +kernel⟩,
    ⟨sReady_inv, by decide +kernel, by decide +kernel⟩,
    ⟨sReset_inv, eq_next_of_isNext _ (by decide), by decide⟩, rfl⟩

theorem witness_DeltaIsDifferenceOverDuration :
    (1 : U8) ≠ 0 ∧ (1 < (sReady.slot 0).n.toNat ∧ 1 < (sReady.slot 0).delta.length) ∧
      ((sStale.slot 1).n = 1 ∧ ((sStale.slot 1).point 0).dur ≠ 0 ∧ 0 < (sStale.slot 1).delta.length) := by
  decide +kernel

/-- A width that divides the strip, and one that leaves a trailing LED. -/
theorem witness_BlockGeometry :
    (1 ≤ (sReady.slot 0).w.toNat ∧ (sReady.slot 0).w.toNat ≤ sReady.params.numLeds ∧
      (sReady.slot 0).w.toNat ∣ sReady.params.numLeds) ∧
    (1 ≤ (sStale.slot 1).w.toNat ∧ (sStale.slot 1).w.toNat ≤ sStale.params.numLeds ∧
      ¬ (sStale.slot 1).w.toNat ∣ sStale.params.numLeds) := by decide +kernel

theorem witness_TrailingLedsKept :
    isNext (exec (.startGradient 1) sStale) = true ∧
      placedLeds sStale.params ((nextOr sStale (exec (.startGradient 1) sStale)).slot 1) ≤ 4 ∧
      4 < sStale.params.numLeds := by decide +kernel

theorem witness_ExactPlacementClosedForm :
    sReady.params.Legal ∧ sReady.params.arith = .exact ∧ (sReady.slot 0).Loaded sReady.params ∧
      (sReady.slot 0).life = .ready ∧ 3 < 4 :=
  ⟨by decide +kernel, by decide +kernel, sReady_loaded, by decide +kernel, by decide⟩

theorem witness_PlacedPhaseInRange :
    (sSeven .binary32).params.Legal ∧ ((sSeven .binary32).slot 0).Loaded (sSeven .binary32).params ∧
      ((sSeven .binary32).slot 0).life = .ready ∧ 65534 < 65535 ∧ 65535 ≤ 65535 :=
  ⟨by decide +kernel, sSeven_loaded, by decide +kernel, by decide, by decide⟩

theorem witness_PointIndexExactInBothArithmetics : 65534 < 65535 ∧ 65535 ≤ 65535 := by decide

theorem witness_StartGradientIdempotent :
    sStale.Inv ∧ (1 : U8).toNat < sStale.used.toNat ∧ (sStale.slot (1 : U8).toNat).life = .ready ∧
      1 + ledsPerWave sStale.params (sStale.slot (1 : U8).toNat) <
        placedLeds sStale.params (sStale.slot (1 : U8).toNat) :=
  ⟨sStale_inv, by decide +kernel, by decide +kernel, by decide +kernel⟩

theorem witness_PlacementWithinOneOfLine :
    (sSeven .binary32).params.Legal ∧ ((sSeven .binary32).slot 0).Loaded (sSeven .binary32).params ∧
      ((sSeven .binary32).slot 0).life = .ready ∧ 1 < 4 ∧ 4 ≤ 65535 :=
  ⟨by decide +kernel, sSeven_loaded, by decide +kernel, by decide, by decide⟩

theorem witness_Binary32DatumRoundTrip :
    (0x7F7FFFFF#32).extractLsb' 23 8 ≠ 0xFF#8 ∧ (0x7F7FFFFF : BitVec 32) ≠ 0x80000000 := by decide

theorem witness_Nearest32IsNearestEven :
    |(1 / 3 : Rat)| ≤ ((2 ^ 24 - 1 : Nat) : Rat) * ((2 ^ 104 : Nat) : Rat) := by decide +kernel

theorem witness_IntegerDeltaLawExact : (1 : U8) ≠ 0 := by decide

theorem witness_IntegerDeltaLawBinary32 : (255 : U8) ≠ 0 := by decide

/-- Each clause at the boundary of its range, for a duration of 8: differences 3, 4 and -5. -/
theorem witness_SlowSegmentHoldsColor :
    (8 : U8) ≠ 0 ∧ 2 * |((3 : U8).toNat : Int) - ((0 : U8).toNat : Int)| < ((8 : U8).toNat : Int) ∧
      (((8 : U8).toNat : Int) ≤ 2 * (((4 : U8).toNat : Int) - ((0 : U8).toNat : Int)) ∧ (254 : U8) ≠ 255) ∧
      (2 * (((0 : U8).toNat : Int) - ((5 : U8).toNat : Int)) < -((8 : U8).toNat : Int) ∧ (1 : U8) ≠ 0) := by
  decide +kernel

/-- A last phase of its segment, and a phase past its segment's duration. -/
theorem witness_StepIsOneCycleStep :
    (∀ i < (sReady.slot 0).n.toNat, 1 ≤ ((sReady.slot 0).point i).dur.toNat) ∧
      PhaseInRange (sReady.slot 0) { r := 0, g := 0, b := 0, idx := 1, sc := 3 } ∧
      (1 < (sReady.slot 0).n.toNat ∧ ((sReady.slot 0).point 1).dur.toNat ≤ (4 : U8).toNat) :=
  ⟨by decide +kernel, ⟨by decide +kernel, by decide +kernel⟩, by decide +kernel⟩

theorem witness_FullCycleReturnsStrip :
    sReady.Inv ∧ sReady.active ≠ 0xFF ∧
      ∀ k < sReady.params.numLeds, PhaseInRange (sReady.slot sReady.active.toNat) (sReady.led k) := by
  refine ⟨sReady_inv, by decide +kernel, ?_⟩
  unfold PhaseInRange
  decide +kernel

theorem witness_ColorIsFunctionOfPhase :
    sReady.params.Legal ∧ sReady.params.arith = .exact ∧ (sReady.slot 0).Loaded sReady.params ∧
      (sReady.slot 0).life = .ready ∧ 1 < (sReady.slot 0).n.toNat ∧
      3 < ((sReady.slot 0).point 1).dur.toNat ∧ 3 + 1 = ((sReady.slot 0).point 1).dur.toNat :=
  ⟨by decide +kernel, by decide +kernel, sReady_loaded, by decide +kernel, by decide +kernel,
    by decide +kernel, by decide +kernel⟩

theorem witness_OnePointGradientConstant :
    sStale.params.Legal ∧ (sStale.slot 1).Loaded sStale.params ∧ (sStale.slot 1).life = .ready ∧
      (sStale.slot 1).n = 1 ∧ (sStale.led 0).idx = 0 ∧ (sStale.led 0).r = ((sStale.slot 1).point 0).r ∧
      (sStale.led 0).g = ((sStale.slot 1).point 0).g ∧ (sStale.led 0).b = ((sStale.slot 1).point 0).b :=
  ⟨by decide +kernel, sStale_loaded 1 (by decide), by decide +kernel, by decide +kernel, by decide +kernel,
    by decide +kernel, by decide +kernel, by decide +kernel⟩

theorem witness_InvHoldsAtReset :
    Params.Legal { numLeds := 65535, maxPoints := 255, maxGradients := 255, arith := .binary32 } := by decide

theorem witness_InvKeptByStep :
    ({ sFilling with hostIn := [.command 0x020000000000FF04] } : State).Inv ∧
      isNext (step { sFilling with hostIn := [.command 0x020000000000FF04] }) = true :=
  ⟨inv_with_hostIn sFilling_inv _, by decide⟩

theorem witness_StepCountStaysBelow255 :
    sReset.params.Legal ∧ Reachable sReset.params sRun ∧ 3 < sRun.params.numLeds :=
  ⟨by decide, sRun_reachable, by decide +kernel⟩

theorem witness_NoStalePhaseWhenWavesTile :
    sReset.params.Legal ∧ Reachable sReset.params sRun ∧
      (∀ i < sRun.used.toNat, (sRun.slot i).w.toNat ∣ sRun.params.numLeds) ∧ sRun.active ≠ 0xFF :=
  ⟨by decide, sRun_reachable, by decide +kernel, by decide +kernel⟩

/-- No slot active yet, then a slot of two points; and the same slot active before and after a STEP. -/
theorem witness_NoStalePhaseWhenPointCountsGrow :
    (({ sFilling with hostIn := [.command 0x020000000000FF04] } : State).Inv ∧ sFilling.active = 0xFF ∧
      (∀ k < sFilling.params.numLeds, (sFilling.led k).idx = 0) ∧
      isNext (step { sFilling with hostIn := [.command 0x020000000000FF04] }) = true) ∧
    (({ sReady with hostIn := [.command 0x0400000000000000] } : State).Inv ∧ sReady.active ≠ 0xFF ∧
      (∀ k < sReady.params.numLeds, (sReady.led k).idx.toNat < (sReady.slot sReady.active.toNat).n.toNat) ∧
      isNext (step { sReady with hostIn := [.command 0x0400000000000000] }) = true ∧
      (sReady.slot sReady.active.toNat).n.toNat ≤
        ((send 0x0400000000000000 sReady).slot (send 0x0400000000000000 sReady).active.toNat).n.toNat) :=
  ⟨⟨inv_with_hostIn sFilling_inv _, by decide, by decide, by decide⟩,
    ⟨inv_with_hostIn sReady_inv _, by decide +kernel, by decide +kernel, by decide +kernel, by decide +kernel⟩⟩

theorem witness_GradientPseudoLoadsSlot :
    sReset.Inv ∧ sReset.used.toNat < sReset.params.maxGradients ∧
      ([{ r := 1, g := 2, b := 3, dur := 4 }, { r := 5, g := 6, b := 7, dur := 255 }] : List ControlPoint).length
        = (2 : U8).toNat ∧
      1 ≤ (2 : U8).toNat ∧ (2 : U8).toNat ≤ sReset.params.maxPoints ∧ 1 ≤ (3 : U16).toNat ∧
      (3 : U16).toNat ≤ sReset.params.numLeds ∧
      ∀ q ∈ ([{ r := 1, g := 2, b := 3, dur := 4 }, { r := 5, g := 6, b := 7, dur := 255 }] : List ControlPoint),
        q.dur ≠ 0 :=
  ⟨sReset_inv, by decide, by decide, by decide, by decide, by decide, by decide, by decide⟩

theorem witness_ClearFaultMeansNoRefusal :
    2 ≤ ({ sReset with hostIn := [.command 0, .command 0x0700000000000000] } : State).hostIn.length ∧
      ∀ e ∈ ({ sReset with hostIn := [.command 0, .command 0x0700000000000000] } : State).hostIn,
        ∃ w, e = .command w :=
  ⟨by decide, by simp⟩

theorem witness_StepCountBoundKeptByStep :
    ({ sReady with hostIn := [.command 0x0400000000000000] } : State).Inv ∧
      (∀ k < sReady.params.numLeds, (sReady.led k).sc.toNat ≤ 254) ∧
      isNext (step { sReady with hostIn := [.command 0x0400000000000000] }) = true ∧
      3 < (send 0x0400000000000000 sReady).params.numLeds :=
  ⟨inv_with_hostIn sReady_inv _, by decide +kernel, by decide +kernel, by decide +kernel⟩

/-- A STEP of the active slot, which has no trailing LEDs; and the append that activates it. -/
theorem witness_PhasesInRangeKeptWithoutTrailingLeds :
    (({ sReady with hostIn := [.command 0x0400000000000000] } : State).Inv ∧ sReady.active ≠ 0xFF ∧
      (∀ k < sReady.params.numLeds, (sReady.led k).idx.toNat < (sReady.slot sReady.active.toNat).n.toNat) ∧
      isNext (step { sReady with hostIn := [.command 0x0400000000000000] }) = true ∧
      (send 0x0400000000000000 sReady).active = 0 ∧
      (send 0x0400000000000000 sReady).params.numLeds %
        numWaves (send 0x0400000000000000 sReady).params ((send 0x0400000000000000 sReady).slot 0) = 0) ∧
    (({ sFilling with hostIn := [.command 0x020000000000FF04] } : State).Inv ∧ sFilling.active = 0xFF ∧
      isNext (step { sFilling with hostIn := [.command 0x020000000000FF04] }) = true ∧
      (send 0x020000000000FF04 sFilling).active = 0 ∧
      (send 0x020000000000FF04 sFilling).params.numLeds %
        numWaves (send 0x020000000000FF04 sFilling).params ((send 0x020000000000FF04 sFilling).slot 0) = 0) :=
  ⟨⟨inv_with_hostIn sReady_inv _, by decide +kernel, by decide +kernel, by decide +kernel, by decide +kernel,
      by decide +kernel⟩,
    ⟨inv_with_hostIn sFilling_inv _, by decide, by decide, by decide +kernel, by decide +kernel⟩⟩

theorem witness_PhaseInvariantsHoldAtReset : 7 < State.reset.params.numLeds := by decide

theorem witness_AssembledCommandsWellFormed :
    (Instr.readLed 0 2).wellFormed = true ∧ assemble ["GET_BLUE 0".toList] = .ok [.readLed 0 2] := by
  decide +kernel

end Sys2Proof.Tests
end

/-! # Proofs about the arithmetic of `D` (00_scope.md R12 to R16) -/

namespace Sys2Proof.Machine

/-! ## CLAMP and ROUND (00_scope.md R14 to R16) -/

theorem roundD_mono {x y : D} (h : x ≤ y) : roundD x ≤ roundD y := by
  rw [roundD, roundD, floorD_eq, floorD_eq]
  exact Int.floor_le_floor (by linarith)

/-- Rounding fixes the integers. -/
theorem roundD_intCast (n : Int) : roundD (n : Rat) = n := by
  rw [roundD, floorD_eq, Int.floor_eq_iff]
  constructor <;> linarith

/-- Both bounds of CLAMP are integers, which ROUND fixes, and ROUND is monotone. -/
theorem roundD_clampD (x : D) : roundD (clampD x) = max 0 (min 255 (roundD x)) := by
  have hzero : roundD 0 = 0 := mod_cast roundD_intCast 0
  have hmax : roundD 255 = 255 := mod_cast roundD_intCast 255
  unfold clampD
  split_ifs with hneg hbig
  · have := roundD_mono hneg.le
    omega
  · have := roundD_mono hbig.le
    omega
  · have hlo := roundD_mono (not_lt.mp hneg)
    have hhi := roundD_mono (not_lt.mp hbig)
    omega

/-- Settles O40: ROUND after CLAMP is the clamp of ROUND on the integers, and the stored byte is that integer. -/
theorem clampRoundCommute : Obligations.ClampRoundCommute := by
  unfold Obligations.ClampRoundCommute
  intro x
  exact ⟨roundD_clampD x, (colorU8_toNat x).trans (roundD_clampD x)⟩

/-! ## Powers of two and the exponent -/

theorem pow2_succ (k : Int) : pow2 (k + 1) = 2 * pow2 k := by
  rw [pow2_add, mul_comm]; rfl

/-- `2^n`, `n` a natural, as a factor of a power of two. -/
theorem pow2_add_natCast (k : Int) (n : Nat) : pow2 (k + n) = (2 ^ n : Nat) * pow2 k := by
  rw [pow2_add, mul_comm]; rfl

theorem intCast_mul_pow2_ne_zero {n : Int} (hn : n ≠ 0) (k : Int) : (n : Rat) * pow2 k ≠ 0 :=
  mul_ne_zero (Int.cast_ne_zero.mpr hn) (pow2_pos k).ne'

/-- The magnitude of an integer multiple of a power of two. -/
theorem abs_intCast_mul_pow2 (n k : Int) : |(n : Rat) * pow2 k| = n.natAbs * pow2 k := by
  rw [abs_mul, abs_of_pos (pow2_pos k), Nat.cast_natAbs, Int.cast_abs]

/-- Distances scale with the unit. -/
theorem abs_mul_pow2_sub (a b : Rat) (k : Int) : |a * pow2 k - b * pow2 k| = |a - b| * pow2 k := by
  rw [← sub_mul, abs_mul, abs_of_pos (pow2_pos k)]

/-! ## Rounding to an integer -/

/-- Rounding does not cross a natural bound on the magnitude. -/
theorem natAbs_nearestEven_le {q : Rat} {n : Nat} (h : |q| ≤ n) : (nearestEven q).natAbs ≤ n := by
  have herr := nearestEven_error q
  have htri := abs_sub_abs_le_abs_sub (nearestEven q : Rat) q
  have hlt : ((nearestEven q).natAbs : Rat) < ((n + 1 : Nat) : Rat) := by
    rw [Nat.cast_natAbs, Int.cast_abs]
    push_cast
    linarith
  exact Nat.lt_succ_iff.mp (Nat.cast_lt.mp hlt)

@[inherit_doc natAbs_nearestEven_le]
theorem le_natAbs_nearestEven {q : Rat} {n : Nat} (h : n ≤ |q|) : n ≤ (nearestEven q).natAbs := by
  have herr := nearestEven_error q
  have htri := abs_sub_abs_le_abs_sub q (nearestEven q : Rat)
  rw [abs_sub_comm] at htri
  have hlt : (n : Rat) < (((nearestEven q).natAbs + 1 : Nat) : Rat) := by
    push_cast
    rw [Nat.cast_natAbs, Int.cast_abs]
    linarith
  exact Nat.lt_succ_iff.mp (Nat.cast_lt.mp hlt)

/-- An integer that rounding leaves by at least one half is the even one. -/
theorem nearestEven_even_of_half_le {q : Rat} (h : 1 / 2 ≤ |(nearestEven q : Rat) - q|) :
    nearestEven q % 2 = 0 := by
  have hlo : (q.floor : Rat) ≤ q := Int.floor_le q
  have hhi : q < q.floor + 1 := Int.lt_floor_add_one q
  unfold nearestEven at h ⊢
  simp only at h ⊢
  split_ifs at h ⊢ with hbelow habove heven
  · rw [abs_of_nonpos (by linarith)] at h
    linarith
  · push_cast at h
    rw [abs_of_nonneg (by linarith)] at h
    linarith
  · exact heven
  · omega

/-- Of two equally near integers the even one is taken: they are at least 1 apart, so each is at least one half
from `q`. -/
theorem nearestEven_even_of_tie {q : Rat} {k : Int} (htie : |(nearestEven q : Rat) - q| = |(k : Rat) - q|)
    (hne : k ≠ nearestEven q) : nearestEven q % 2 = 0 := by
  have hapart : (1 : Rat) ≤ |(k : Rat) - nearestEven q| := by
    exact_mod_cast Int.one_le_abs (sub_ne_zero.mpr hne)
  have htri := abs_sub_le (k : Rat) q (nearestEven q)
  rw [abs_sub_comm q] at htri
  exact nearestEven_even_of_half_le (by linarith)

/-- A value of magnitude below a natural bound that `q` reaches is farther from `q` than the rounded integer: the
bound itself, with the sign of `q`, lies between. -/
theorem nearestEven_lt_of_abs_lt {q w : Rat} {b : Nat} (hq : b ≤ |q|) (hw : |w| < b) :
    |(nearestEven q : Rat) - q| < |w - q| := by
  obtain ⟨hwlo, hwhi⟩ := abs_lt.mp hw
  rcases le_total 0 q with hpos | hneg
  · rw [abs_of_nonneg hpos] at hq
    calc |(nearestEven q : Rat) - q| ≤ |((b : Int) : Rat) - q| := nearestEven_le q b
      _ = q - b := by push_cast; rw [abs_sub_comm, abs_of_nonneg (by linarith)]
      _ < q - w := by linarith
      _ ≤ |w - q| := by rw [abs_sub_comm]; exact le_abs_self _
  · rw [abs_of_nonpos hneg] at hq
    calc |(nearestEven q : Rat) - q| ≤ |((-b : Int) : Rat) - q| := nearestEven_le q (-b)
      _ = -b - q := by push_cast; rw [abs_of_nonneg (by linarith)]
      _ < w - q := by linarith
      _ ≤ |w - q| := le_abs_self _

/-! ## The values of the format (00_scope.md R12) -/

/-- `n · 2^k` is a binary32 value written with its own unit: 24 significant bits, all used unless the unit is the
finest, that of the subnormals. -/
structure InFormat (n k : Int) : Prop where
  unit_ge : -149 ≤ k
  lt : n.natAbs < 2 ^ 24
  normal : 2 ^ 23 ≤ n.natAbs ∨ k = -149

section
variable {n k : Int}

/-- The unit in the last place of a value of the format is the one it is written with. -/
theorem InFormat.ulpExponent_eq (h : InFormat n k) (hn : n ≠ 0) : ulpExponent (n * pow2 k) = k := by
  obtain ⟨hk, hlt, hnormal⟩ := h
  have hx : (n : Rat) * pow2 k ≠ 0 := intCast_mul_pow2_ne_zero hn k
  obtain ⟨hlo, hhi⟩ := exponent2_spec hx
  have habs := abs_intCast_mul_pow2 n k
  have hup : |(n : Rat) * pow2 k| < pow2 (k + (24 : Nat)) := by
    rw [habs, pow2_add_natCast]
    exact mul_lt_mul_of_pos_right (by exact_mod_cast hlt) (pow2_pos k)
  have hexp_lt := (pow2_lt_iff _ _).mp (hlo.trans_lt hup)
  unfold ulpExponent
  rcases hnormal with hge | rfl
  · have hdown : pow2 (k + (23 : Nat)) ≤ |(n : Rat) * pow2 k| := by
      rw [habs, pow2_add_natCast]
      exact mul_le_mul_of_nonneg_right (by exact_mod_cast hge) (pow2_pos k).le
    have hexp_ge := (pow2_lt_iff _ _).mp (hdown.trans_lt hhi)
    omega
  · omega

/-- Rounding fixes the values of the format. -/
theorem InFormat.nearest32_eq (h : InFormat n k) : nearest32 (n * pow2 k) = n * pow2 k := by
  by_cases hn : n = 0
  · simp [hn]
  · have hx : (n : Rat) * pow2 k ≠ 0 := intCast_mul_pow2_ne_zero hn k
    rw [nearest32, if_neg hx, h.ulpExponent_eq hn, mul_div_cancel_right₀ _ (pow2_pos k).ne',
      nearestEven_intCast]

end

/-! ## The fields of a datum (00_scope.md R12) -/

section
variable (v : BitVec 32)

/-- The exponent field. -/
def expField32 : Nat := (v.extractLsb' 23 8).toNat

/-- The signed significand: the fraction field with the leading bit of a normal datum, and the sign. -/
def significand32 : Int :=
  let f : Nat := (v.extractLsb' 0 23).toNat
  let m : Nat := if expField32 v = 0 then f else 2 ^ 23 + f
  if v.msb then -m else m

/-- The exponent of the unit of the significand. -/
def unitExponent32 : Int := if expField32 v = 0 then -149 else (expField32 v : Int) - 150

theorem value32_eq : value32 v = significand32 v * pow2 (unitExponent32 v) := by
  unfold value32 significand32 unitExponent32 expField32
  simp only
  split_ifs <;> push_cast <;> ring

theorem expField32_eq : expField32 v = v.toNat / 2 ^ 23 % 2 ^ 8 := by
  rw [expField32, BitVec.extractLsb'_toNat, Nat.shiftRight_eq_div_pow]

/-- A datum is finite when its exponent field is not all ones. -/
theorem finite_datum_iff : v.extractLsb' 23 8 ≠ 0xFF#8 ↔ expField32 v ≠ 255 := by
  rw [expField32, Ne, ← BitVec.toNat_inj]; rfl

/-- Exponent fields 0 and 1 share the finest unit. -/
theorem unitExponent32_biased : (unitExponent32 v + 149).toNat = expField32 v - 1 := by
  unfold unitExponent32
  split_ifs with h
  · rw [h]; rfl
  · omega

/-- The signed significand from the datum as a number. -/
theorem significand32_eq : significand32 v =
    (if 2 ^ 31 ≤ v.toNat then -1 else 1) *
      ((if expField32 v = 0 then v.toNat % 2 ^ 23 else 2 ^ 23 + v.toNat % 2 ^ 23 : Nat) : Int) := by
  have hf : (v.extractLsb' 0 23).toNat = v.toNat % 2 ^ 23 := by
    rw [BitVec.extractLsb'_toNat, Nat.shiftRight_zero]
  unfold significand32
  simp only [hf, BitVec.msb_eq_decide, decide_eq_true_eq]
  split_ifs <;> simp

/-- The value of every datum is in the format. -/
theorem inFormat_fields : InFormat (significand32 v) (unitExponent32 v) := by
  rw [significand32_eq, unitExponent32]
  constructor <;> split_ifs <;> omega

end

/-! ## The datum of a value (00_scope.md R12) -/

/-- The datum of `n · 2^k`, as `bits32` builds it. A significand of `2^24` carries into the exponent field. -/
def datum32 (n k : Int) : BitVec 32 :=
  BitVec.ofNat 32 ((if n < 0 then 2 ^ 31 else 0) + ((k + 149).toNat * 2 ^ 23 + n.natAbs))

theorem InFormat.bits32_eq {n k : Int} (h : InFormat n k) : bits32 (n * pow2 k) = datum32 n k := by
  have hk := pow2_pos k
  by_cases hn : n = 0
  · have hunit : k = -149 := h.normal.resolve_left (by omega)
    simp [hn, hunit, bits32, datum32]
  · have hx : (n : Rat) * pow2 k ≠ 0 := intCast_mul_pow2_ne_zero hn k
    have hsign : (n : Rat) * pow2 k < 0 ↔ n < 0 := by
      simpa using mul_lt_mul_iff_left₀ (b := (n : Rat)) (c := 0) hk
    simp only [bits32, if_neg hx, h.ulpExponent_eq hn, mul_div_cancel_right₀ _ hk.ne', Rat.num_intCast, hsign,
      datum32]

/-- Every finite datum but negative zero is the datum of its fields. -/
theorem datum32_fields {v : BitVec 32} (hv : v ≠ 0x80000000) :
    datum32 (significand32 v) (unitExponent32 v) = v := by
  replace hv : v.toNat ≠ 2 ^ 31 := by simpa [← BitVec.toNat_inj] using hv
  have hlt := v.isLt
  apply BitVec.eq_of_toNat_eq
  rw [datum32, BitVec.toNat_ofNat, significand32_eq, unitExponent32_biased, expField32_eq]
  split_ifs <;> omega

section
variable {n k : Int} (hk : -149 ≤ k) (hnormal : 2 ^ 23 ≤ n.natAbs ∨ k = -149)
  (hfinite : (k + 149).toNat * 2 ^ 23 + n.natAbs < 255 * 2 ^ 23)
include hfinite

theorem datum32_toNat :
    (datum32 n k).toNat = (if n < 0 then 2 ^ 31 else 0) + ((k + 149).toNat * 2 ^ 23 + n.natAbs) := by
  rw [datum32, BitVec.toNat_ofNat, Nat.mod_eq_of_lt]
  split_ifs <;> omega

theorem expField32_datum32 :
    expField32 (datum32 n k) = ((k + 149).toNat * 2 ^ 23 + n.natAbs) / 2 ^ 23 := by
  rw [expField32_eq, datum32_toNat hfinite]
  split_ifs <;> omega

theorem datum32_finite : (datum32 n k).extractLsb' 23 8 ≠ 0xFF#8 := by
  rw [finite_datum_iff, expField32_datum32 hfinite]
  omega

theorem datum32_even (heven : n % 2 = 0) : (datum32 n k).getLsbD 0 = false := by
  rw [BitVec.getLsbD, Nat.testBit_zero, datum32_toNat hfinite, decide_eq_false_iff_not]
  split_ifs <;> omega

include hk hnormal

/-- The datum of `n · 2^k` denotes it, also when the significand is the `2^24` to which rounding can carry. -/
theorem value32_datum32 (hle : n.natAbs ≤ 2 ^ 24) : value32 (datum32 n k) = n * pow2 k := by
  have hexp := expField32_datum32 hfinite
  rw [value32_eq]
  rcases hle.lt_or_eq with hlt | hcarry
  · have hsig : significand32 (datum32 n k) = n := by
      rw [significand32_eq, hexp, datum32_toNat hfinite]
      split_ifs <;> omega
    have hunit : n = 0 ∨ unitExponent32 (datum32 n k) = k := by
      rw [unitExponent32, hexp]
      split_ifs <;> omega
    rw [hsig]
    rcases hunit with rfl | hunit
    · simp
    · rw [hunit]
  · have hsig : 2 * significand32 (datum32 n k) = n := by
      rw [significand32_eq, hexp, datum32_toNat hfinite]
      split_ifs <;> omega
    have hunit : unitExponent32 (datum32 n k) = k + 1 := by
      rw [unitExponent32, hexp]
      split_ifs <;> omega
    have hsig' : (n : Rat) = 2 * significand32 (datum32 n k) := by exact_mod_cast hsig.symm
    rw [hunit, pow2_succ, hsig']
    ring

end

/-- Settles O41: a datum's fields are a value of the format, which rounding fixes, and `bits32` packs the same
fields again. -/
theorem binary32DatumRoundTrip : Obligations.Binary32DatumRoundTrip := by
  unfold Obligations.Binary32DatumRoundTrip
  intro v _
  have hformat := inFormat_fields v
  rw [value32_eq]
  refine ⟨hformat.nearest32_eq, fun hv => ?_⟩
  rw [hformat.bits32_eq, datum32_fields hv]

/-! ## Rounding to binary32 (00_scope.md R12) -/

theorem neg149_le_ulpExponent (x : Rat) : -149 ≤ ulpExponent x := le_max_right _ _

section
variable {x : Rat} (hx : x ≠ 0)
include hx

/-- In its own unit a value has magnitude below `2^24`. -/
theorem abs_div_ulp_lt : |x / pow2 (ulpExponent x)| < (2 ^ 24 : Nat) := by
  have hp := pow2_pos (ulpExponent x)
  rw [abs_div, abs_of_pos hp, div_lt_iff₀ hp, ← pow2_add_natCast]
  refine (exponent2_spec hx).2.trans_le ((pow2_le_iff _ _).mpr ?_)
  unfold ulpExponent
  omega

/-- In its own unit a value has magnitude at least `2^23`, unless the unit is the finest. -/
theorem le_abs_div_ulp (hunit : ulpExponent x ≠ -149) :
    ((2 ^ 23 : Nat) : Rat) ≤ |x / pow2 (ulpExponent x)| := by
  have hp := pow2_pos (ulpExponent x)
  rw [abs_div, abs_of_pos hp, le_div_iff₀ hp, ← pow2_add_natCast]
  refine ((pow2_le_iff _ _).mpr ?_).trans (exponent2_spec hx).1
  unfold ulpExponent at hunit ⊢
  omega

end

/-- Every datum's value is a multiple of a given unit, or the unit is not the finest and the value is below the
values that need it. -/
theorem value32_multiple_or_small (u : BitVec 32) (k : Int) :
    (∃ n : Int, value32 u = n * pow2 k) ∨ (k ≠ -149 ∧ |value32 u| < (2 ^ 23 : Nat) * pow2 k) := by
  obtain ⟨hunit, hlt, -⟩ := inFormat_fields u
  rw [value32_eq]
  rcases le_or_gt k (unitExponent32 u) with hle | hgt
  · obtain ⟨d, hd⟩ := Int.le.dest hle
    refine .inl ⟨significand32 u * (2 ^ d : Nat), ?_⟩
    rw [← hd, pow2_add_natCast]
    push_cast
    ring
  · refine .inr ⟨by omega, ?_⟩
    rw [abs_intCast_mul_pow2, ← pow2_add_natCast]
    calc ((significand32 u).natAbs : Rat) * pow2 (unitExponent32 u)
        < (2 ^ 24 : Nat) * pow2 (unitExponent32 u) :=
          mul_lt_mul_of_pos_right (by exact_mod_cast hlt) (pow2_pos _)
      _ = pow2 (unitExponent32 u + (24 : Nat)) := (pow2_add_natCast _ _).symm
      _ ≤ pow2 (k + (23 : Nat)) := (pow2_le_iff _ _).mpr (by omega)

/-- The rounded significand of `x`, in the unit of `x`. -/
def roundedSignificand (x : Rat) : Int := nearestEven (x / pow2 (ulpExponent x))

theorem nearest32_eq_mul {x : Rat} (hx : x ≠ 0) :
    nearest32 x = roundedSignificand x * pow2 (ulpExponent x) := by
  rw [nearest32, if_neg hx, roundedSignificand]

/-- No datum is nearer than the rounded value, and one equally near leaves the rounded significand even. -/
theorem nearest32_nearest_even {x : Rat} (hx : x ≠ 0) (u : BitVec 32) :
    |nearest32 x - x| ≤ |value32 u - x| ∧
      (|nearest32 x - x| = |value32 u - x| → value32 u ≠ nearest32 x → roundedSignificand x % 2 = 0) := by
  have hp := pow2_pos (ulpExponent x)
  have hround := nearest32_eq_mul hx
  have hmul : x / pow2 (ulpExponent x) * pow2 (ulpExponent x) = x := div_mul_cancel₀ x hp.ne'
  have hdist : ∀ a : Rat, |a * pow2 (ulpExponent x) - x| =
      |a - x / pow2 (ulpExponent x)| * pow2 (ulpExponent x) := fun a => by
    rw [← abs_mul_pow2_sub, hmul]
  rcases value32_multiple_or_small u (ulpExponent x) with ⟨n, hn⟩ | ⟨hunit, hsmall⟩
  · rw [hn, hround, hdist, hdist]
    refine ⟨mul_le_mul_of_nonneg_right (nearestEven_le _ n) hp.le, fun htie hne => ?_⟩
    refine nearestEven_even_of_tie (mul_right_cancel₀ hp.ne' htie) fun h => hne ?_
    rw [h, roundedSignificand]
  · have hw : |value32 u / pow2 (ulpExponent x)| < (2 ^ 23 : Nat) := by
      rwa [abs_div, abs_of_pos hp, div_lt_iff₀ hp]
    have hlt : |nearest32 x - x| < |value32 u - x| := by
      rw [hround, ← div_mul_cancel₀ (value32 u) hp.ne', hdist, hdist]
      exact mul_lt_mul_of_pos_right (nearestEven_lt_of_abs_lt (le_abs_div_ulp hx hunit) hw) hp
    exact ⟨hlt.le, fun htie => absurd htie hlt.ne⟩

/-- The bits of a rounded value of the finite range stay below those of infinity. -/
theorem roundedSignificand_finite {x : Rat} (hx : x ≠ 0)
    (hrange : |x| ≤ ((2 ^ 24 - 1 : Nat) : Rat) * ((2 ^ 104 : Nat) : Rat)) :
    (ulpExponent x + 149).toNat * 2 ^ 23 + (roundedSignificand x).natAbs < 255 * 2 ^ 23 := by
  have hp := pow2_pos (ulpExponent x)
  have hle : (roundedSignificand x).natAbs ≤ 2 ^ 24 := natAbs_nearestEven_le (abs_div_ulp_lt hx).le
  have hexp : exponent2 x < 128 := by
    refine (pow2_lt_iff _ _).mp ((exponent2_spec hx).1.trans_lt (hrange.trans_lt ?_))
    rw [pow2_eq_zpow]
    norm_num
  have hulp : ulpExponent x ≤ 104 := by unfold ulpExponent; omega
  rcases hulp.lt_or_eq with hlt | htop
  · omega
  · have hsig : (roundedSignificand x).natAbs ≤ 2 ^ 24 - 1 := by
      refine natAbs_nearestEven_le ?_
      rw [abs_div, abs_of_pos hp, div_le_iff₀ hp, htop]
      exact hrange
    omega

/-- Settles O42: the rounded significand and its unit are the fields of a finite datum, no other datum is nearer,
and a tie leaves the significand, and so the datum, even. -/
theorem nearest32IsNearestEven : Obligations.Nearest32IsNearestEven := by
  unfold Obligations.Nearest32IsNearestEven
  intro x hrange
  by_cases hx : x = 0
  · subst hx
    exact ⟨0, by decide, by decide +kernel, fun u _ => ⟨by simp, fun _ _ => rfl⟩⟩
  · have hfinite := roundedSignificand_finite hx hrange
    have hle : (roundedSignificand x).natAbs ≤ 2 ^ 24 := natAbs_nearestEven_le (abs_div_ulp_lt hx).le
    have hnormal : 2 ^ 23 ≤ (roundedSignificand x).natAbs ∨ ulpExponent x = -149 := by
      by_cases hunit : ulpExponent x = -149
      · exact .inr hunit
      · exact .inl (le_natAbs_nearestEven (le_abs_div_ulp hx hunit))
    refine ⟨datum32 (roundedSignificand x) (ulpExponent x), datum32_finite hfinite, ?_, fun u _ => ?_⟩
    · rw [value32_datum32 (neg149_le_ulpExponent x) hnormal hfinite hle, nearest32_eq_mul hx]
    · obtain ⟨hnear, heven⟩ := nearest32_nearest_even hx u
      exact ⟨hnear, fun htie hne => datum32_even hfinite (heven htie hne)⟩

end Sys2Proof.Machine

/-! # Proofs about the state of the block (10_state.md) -/

namespace Sys2Proof.Machine

/-! ## What a command can do -/

/-- What a command that answers a next state has done. The refusals carry the codes that set a FAULT bit
(60_exceptions.md R158); the other cases carry the guards past which the command writes. -/
inductive ExecEffect (s : State) : Instr → State → Prop
  | refused (i : Instr) (st : Status) (hstale : st = .stalePhase → i = .step)
      (hillegal : st = .illegalCommand → i.wellFormed = false) : ExecEffect s i (s.raiseError st)
  | answered (i : Instr) (d : RspData) : ExecEffect s i (s.respond .ok d)
  | allocated (n : U8) (w : U16) (hconfig : configInvalid s.params n w = false)
      (hfree : s.used.toNat ≠ s.params.maxGradients) :
      ExecEffect s (.addGradient n w)
        (((s.setSlot s.used.toNat ((s.slot s.used.toNat).allocated n w)).setUsed (s.used + 1)).respond
          .ok (data8 s.used))
  | stored (sl r g b dur : U8) (hslot : sl.toNat < s.used.toNat)
      (hroom : (s.slot sl.toNat).count ≠ (s.slot sl.toNat).n) (hdur : dur ≠ 0)
      (hlast : (s.slot sl.toNat).count.toNat + 1 ≠ (s.slot sl.toNat).n.toNat) :
      ExecEffect s (.appendCp sl r g b dur)
        ((s.setSlot sl.toNat ((s.slot sl.toNat).appended ⟨r, g, b, dur⟩)).respond .ok 0)
  | completed (sl r g b dur : U8) (hslot : sl.toNat < s.used.toNat)
      (hroom : (s.slot sl.toNat).count ≠ (s.slot sl.toNat).n) (hdur : dur ≠ 0)
      (hlast : (s.slot sl.toNat).count.toNat + 1 = (s.slot sl.toNat).n.toNat) :
      ExecEffect s (.appendCp sl r g b dur)
        (((s.setSlot sl.toNat (((s.slot sl.toNat).appended ⟨r, g, b, dur⟩).completed s.params.arith)).activate
          sl).respond .ok 0)
  | started (sl : U8) (hslot : sl.toNat < s.used.toNat) (hready : (s.slot sl.toNat).life = .ready) :
      ExecEffect s (.startGradient sl) ((s.activate sl).respond .ok 0)
  | stepped (hactive : s.active ≠ activeNone) (hfresh : anyStale (s.slot s.active.toNat) s.leds = false) :
      ExecEffect s .step
        ((s.setLeds (s.leds.map (stepLed s.params.arith (s.slot s.active.toNat)))).respond .ok 0)

/-- The channel selector that selects no channel is that of the ill-formed READ_LED (30_encoding.md R74). -/
theorem channelOf_eq_none_iff (ch : BitVec 2) (l : Led) : channelOf ch l = none ↔ channelSelects ch = false := by
  have hch : ch = 0 ∨ ch = 1 ∨ ch = 2 ∨ ch = 3 := by revert ch; decide
  rcases hch with rfl | rfl | rfl | rfl <;> simp [channelOf, channelSelects]

theorem exec_effect {i : Instr} {s t : State} (h : exec i s = .next t) : ExecEffect s i t := by
  cases i with
  | nop =>
    obtain rfl : s.respond .ok 0 = t := by simpa [exec, execNop] using h
    exact .answered _ _
  | addGradient n w =>
    rcases execAddGradient_cases h with ⟨-, rfl⟩ | ⟨-, -, rfl⟩ | ⟨hconfig, hfree, rfl⟩
    · exact .refused _ _ nofun nofun
    · exact .refused _ _ nofun nofun
    · exact .allocated n w hconfig hfree
  | appendCp sl r g b dur =>
    rcases execAppendCp_cases h with ⟨-, rfl⟩ | ⟨-, -, rfl⟩ | ⟨-, -, -, rfl⟩ | ⟨hslot, hroom, hdur, rfl⟩
    · exact .refused _ _ nofun nofun
    · exact .refused _ _ nofun nofun
    · exact .refused _ _ nofun nofun
    · rcases appendPoint_cases s sl ⟨r, g, b, dur⟩ with ⟨hlast, heq⟩ | ⟨hlast, heq⟩
      · rw [heq]; exact .completed sl r g b dur hslot hroom hdur hlast
      · rw [heq]; exact .stored sl r g b dur hslot hroom hdur hlast
  | startGradient sl =>
    rcases execStartGradient_cases h with ⟨-, rfl⟩ | ⟨-, -, rfl⟩ | ⟨hslot, hready, rfl⟩
    · exact .refused _ _ nofun nofun
    · exact .refused _ _ nofun nofun
    · exact .started sl hslot hready
  | step =>
    rcases execStep_cases h with ⟨-, rfl⟩ | ⟨-, -, rfl⟩ | ⟨hactive, hfresh, rfl⟩
    · exact .refused _ _ nofun nofun
    · exact .refused _ _ (fun _ => rfl) nofun
    · exact .stepped hactive hfresh
  | readLed k ch =>
    rcases execReadLed_cases h with ⟨hch, rfl⟩ | ⟨v, -, ⟨-, rfl⟩ | ⟨-, -, rfl⟩ | ⟨-, -, rfl⟩⟩
    · exact .refused _ _ nofun fun _ => (channelOf_eq_none_iff ch _).mp hch
    · exact .refused _ _ nofun nofun
    · exact .refused _ _ nofun nofun
    · exact .answered _ _
  | readPhase k =>
    rcases execReadPhase_cases h with ⟨-, rfl⟩ | ⟨-, -, rfl⟩ | ⟨-, -, rfl⟩
    · exact .refused _ _ nofun nofun
    · exact .refused _ _ nofun nofun
    · exact .answered _ _
  | readStatus =>
    obtain rfl : s.respond .ok (dataBytes s.used s.active (faultRead s.fault)) = t := by
      simpa [exec, execReadStatus] using h
    exact .answered _ _

/-- A u8 counter below its greatest value does not wrap. -/
theorem toNat_add_one_of_lt {v : U8} (h : v.toNat < 255) : (v + 1).toNat = v.toNat + 1 := by
  have hone : (1 : U8).toNat = 1 := rfl
  rw [BitVec.toNat_add, hone]
  omega

/-! ## A slot under the loading commands (40_gradient_load.md R86, R88, R91) -/

theorem Slot.allocated_loaded {p : Params} {n : U8} {w : U16} (sl : Slot) (hconfig : configInvalid p n w = false) :
    (sl.allocated n w).Loaded p := by
  have hvalid := mt (configInvalid_iff p n w).mpr (by simp [hconfig])
  push Not at hvalid
  obtain ⟨hn, hn_le, hw, hw_le⟩ := hvalid
  have hcount : (0 : U8) ≠ n := by rintro rfl; exact hn rfl
  exact
    { n_pos := Nat.one_le_iff_ne_zero.mpr hn
      n_le := hn_le
      w_pos := Nat.one_le_iff_ne_zero.mpr hw
      w_le := hw_le
      count_le := Nat.zero_le _
      life_eq := (if_neg hcount).symm
      dur_pos := fun i hi => absurd hi (Nat.not_lt_zero i)
      deltas := nofun }

section
variable {p : Params} {sl : Slot} {pt : ControlPoint}

theorem Slot.Loaded.count_lt (h : sl.Loaded p) (hroom : sl.count ≠ sl.n) : sl.count.toNat < sl.n.toNat :=
  lt_of_le_of_ne h.count_le fun he => hroom (BitVec.eq_of_toNat_eq he)

/-- One more append does not wrap the cursor. -/
theorem Slot.Loaded.count_succ (h : sl.Loaded p) (hroom : sl.count ≠ sl.n) :
    (sl.count + 1).toNat = sl.count.toNat + 1 := by
  have hlt := h.count_lt hroom
  have hn := sl.n.isLt
  exact toNat_add_one_of_lt (by omega)

/-- Every appended point has a duration, the new one too (10_state.md R28). -/
theorem Slot.Loaded.appended_dur_pos (h : sl.Loaded p) (hroom : sl.count ≠ sl.n)
    (hlen : sl.pt.length = p.maxPoints) (hdur : pt.dur ≠ 0) :
    ∀ i < (sl.count + 1).toNat, 1 ≤ ((sl.appended pt).point i).dur.toNat := by
  intro i hi
  have hlt := h.count_lt hroom
  have hn := h.n_le
  rw [h.count_succ hroom] at hi
  by_cases hnew : sl.count.toNat = i
  · subst hnew
    rw [Slot.appended_point_self sl pt (by omega)]
    exact Nat.one_le_iff_ne_zero.mpr fun he => hdur (BitVec.eq_of_toNat_eq he)
  · rw [Slot.appended_point_ne sl pt hnew]
    exact h.dur_pos i (by omega)

theorem Slot.Loaded.appended (h : sl.Loaded p) (hroom : sl.count ≠ sl.n) (hlen : sl.pt.length = p.maxPoints)
    (hdur : pt.dur ≠ 0) (hlast : sl.count.toNat + 1 ≠ sl.n.toNat) : (sl.appended pt).Loaded p := by
  have hsucc := h.count_succ hroom
  have hlt := h.count_lt hroom
  have hfilling : sl.life = .filling := by rw [h.life_eq, if_neg hroom]
  exact
    { h with
      count_le := by rw [Slot.appended_count, Slot.appended_n, hsucc]; omega
      life_eq := by
        rw [Slot.appended_life, Slot.appended_count, Slot.appended_n, hfilling, if_neg]
        intro he
        exact hlast (by rw [← hsucc, he])
      dur_pos := h.appended_dur_pos hroom hlen hdur
      deltas := fun hready => by simp [hfilling] at hready }

theorem Slot.Loaded.completed (h : sl.Loaded p) (hroom : sl.count ≠ sl.n) (hlen : sl.pt.length = p.maxPoints)
    (hdelta : sl.delta.length = p.maxPoints) (hdur : pt.dur ≠ 0) (hlast : sl.count.toNat + 1 = sl.n.toNat) :
    ((sl.appended pt).completed p.arith).Loaded p := by
  have hsucc := h.count_succ hroom
  have hfull : sl.count + 1 = sl.n := BitVec.eq_of_toNat_eq (hsucc.trans hlast)
  exact
    { h with
      count_le := (congrArg BitVec.toNat hfull).le
      life_eq := (if_pos hfull).symm
      dur_pos := h.appended_dur_pos hroom hlen hdur
      deltas := fun _ i hi => by
        have hi' : i < sl.delta.length := by
          have hn := h.n_le
          rw [hdelta]
          exact hi.trans_le hn
        rw [Slot.completed, computeDeltas_segDelta, if_pos ⟨hi, hi'⟩]
        exact segmentDelta_congr _ _ rfl rfl }

end

/-! ## The invariant under the operations on the state (10_state.md R34) -/

/-- Setting FAULT bits sets no reserved one (10_state.md R32). -/
theorem faultAfter_reserved (st : Status) (f : U8) : faultAfter st f &&& 0xFC = f &&& 0xFC := by
  have hbit : faultBitOf st &&& 0xFC = 0 := by cases st <;> decide
  rw [faultAfter, BitVec.and_or_distrib_right, hbit]
  exact BitVec.or_zero

section
variable {s : State}

theorem State.Inv.popHost (h : s.Inv) : s.popHost.Inv := { h with }

theorem State.Inv.respond (h : s.Inv) (st : Status) (d : RspData) : (s.respond st d).Inv := { h with }

theorem State.Inv.raiseError (h : s.Inv) (st : Status) : (s.raiseError st).Inv :=
  { h with fault_reserved := (faultAfter_reserved st s.fault).trans h.fault_reserved }

theorem State.Inv.setLeds (h : s.Inv) {ls : List Led} (hlen : ls.length = s.leds.length) : (s.setLeds ls).Inv :=
  { h with led_count := hlen.trans h.led_count }

theorem State.Inv.activate (h : s.Inv) {sl : U8} (hslot : sl.toNat < s.used.toNat)
    (hready : (s.slot sl.toNat).life = .ready) : (s.activate sl).Inv :=
  { h.setLeds (placeLeds_length s.params (s.slot sl.toNat) s.leds) with
    active_ready := .inr ⟨hslot, hready⟩ }

/-- `USED` counts slots that exist. -/
theorem State.Inv.lt_slots (h : s.Inv) {i : Nat} (hi : i < s.used.toNat) : i < s.slots.length := by
  have hused := h.used_le
  rw [h.slot_count]
  omega

/-- A slot below the new `USED` may be written with a loaded one, if `USED` keeps or gains that slot and no other,
and if the slot stays READY where it was. -/
theorem State.Inv.setSlot_setUsed (h : s.Inv) {i : Nat} {sl : Slot} {v : U8}
    (hmax : v.toNat ≤ s.params.maxGradients) (hi : i < v.toNat)
    (hused : ∀ j, i ≠ j → (j < v.toNat ↔ j < s.used.toNat)) (hloaded : sl.Loaded s.params)
    (hpt : sl.pt.length = (s.slot i).pt.length) (hdelta : sl.delta.length = (s.slot i).delta.length)
    (hready : (s.slot i).life = .ready → sl.life = .ready) : ((s.setSlot i sl).setUsed v).Inv := by
  have hself : (s.setSlot i sl).slot i = sl :=
    s.slot_setSlot_self i sl (h.slot_count.symm ▸ hi.trans_le hmax)
  have hne : ∀ j, i ≠ j → (s.setSlot i sl).slot j = s.slot j := fun j => s.slot_setSlot_ne sl
  exact
    { h with
      slot_count := (List.length_set ..).trans h.slot_count
      used_le := hmax
      slot_arrays := fun j hj => by
        rw [State.setUsed_slot]
        by_cases hij : i = j
        · subst hij
          rw [hself, hpt, hdelta]
          exact h.slot_arrays i hj
        · rw [hne j hij]
          exact h.slot_arrays j hj
      slot_empty := fun j hj => by
        rw [State.setUsed_slot, State.setUsed_used]
        by_cases hij : i = j
        · subst hij
          have hlife : sl.life ≠ .empty := by rw [hloaded.life_eq]; split <;> nofun
          rw [hself]
          exact iff_of_false hlife (not_le.mpr hi)
        · rw [hne j hij, h.slot_empty j hj]
          have := hused j hij
          omega
      slot_loaded := fun j hj => by
        rw [State.setUsed_slot]
        by_cases hij : i = j
        · subst hij
          rwa [hself]
        · rw [hne j hij]
          exact h.slot_loaded j ((hused j hij).mp hj)
      active_ready := h.active_ready.imp_right fun ⟨hactive, hlife⟩ => by
        rw [State.setUsed_used, State.setUsed_active, State.setUsed_slot, State.setSlot_active]
        by_cases hij : i = s.active.toNat
        · rw [← hij, hself]
          exact ⟨hi, hready (hij ▸ hlife)⟩
        · rw [hne _ hij]
          exact ⟨(hused _ hij).mpr hactive, hlife⟩ }

/-- An allocated slot may be rewritten. -/
theorem State.Inv.setSlot (h : s.Inv) {i : Nat} {sl : Slot} (hi : i < s.used.toNat) (hloaded : sl.Loaded s.params)
    (hpt : sl.pt.length = (s.slot i).pt.length) (hdelta : sl.delta.length = (s.slot i).delta.length)
    (hready : (s.slot i).life = .ready → sl.life = .ready) : (s.setSlot i sl).Inv :=
  h.setSlot_setUsed h.used_le hi (fun _ _ => Iff.rfl) hloaded hpt hdelta hready

/-- The next free slot may be allocated: `USED` grows by one, without wrapping. -/
theorem State.Inv.allocate (h : s.Inv) {sl : Slot} (hfree : s.used.toNat ≠ s.params.maxGradients)
    (hloaded : sl.Loaded s.params) (hpt : sl.pt.length = (s.slot s.used.toNat).pt.length)
    (hdelta : sl.delta.length = (s.slot s.used.toNat).delta.length) :
    ((s.setSlot s.used.toNat sl).setUsed (s.used + 1)).Inv := by
  obtain ⟨-, -, -, hmax⟩ := h.legal
  have hlt : s.used.toNat < s.params.maxGradients := lt_of_le_of_ne h.used_le hfree
  have hsucc := toNat_add_one_of_lt (v := s.used) (by omega)
  have hempty : (s.slot s.used.toNat).life = .empty := (h.slot_empty _ hlt).mpr le_rfl
  exact h.setSlot_setUsed (by omega) (by omega) (fun j _ => by omega) hloaded hpt hdelta
    fun hready => by simp [hempty] at hready

end

/-! ## The invariant at reset and under every step (10_state.md R34, R37) -/

theorem resetWith_inv {p : Params} (hp : p.Legal) : (State.resetWith p).Inv where
  legal := hp
  led_count := by simp
  slot_count := by simp
  used_le := Nat.zero_le _
  slot_arrays := fun i _ => by simp [State.resetWith_slot]
  slot_empty := fun i _ => by simp [State.resetWith_slot]
  slot_loaded := fun i hi => absurd hi (Nat.not_lt_zero i)
  active_ready := .inl rfl
  fault_reserved := by simp

theorem State.Inv.applyReset {s : State} (h : s.Inv) : s.applyReset.Inv := { resetWith_inv h.legal with }

/-- Settles O50: at reset no slot is allocated and none is active, so only the array sizes have content. -/
theorem invHoldsAtReset : Obligations.InvHoldsAtReset := by
  unfold Obligations.InvHoldsAtReset
  exact ⟨fun _ hp => resetWith_inv hp, resetWith_inv (by decide)⟩

/-- Every command keeps the invariant: the refusals and the readouts touch nothing of it, and each writing command
writes within it by its guards. -/
theorem exec_keeps_inv {i : Instr} {s t : State} (h : s.Inv) (he : exec i s = .next t) : t.Inv := by
  have hslots : ∀ sl : U8, sl.toNat < s.used.toNat → (s.slot sl.toNat).pt.length = s.params.maxPoints ∧
      (s.slot sl.toNat).delta.length = s.params.maxPoints :=
    fun sl hslot => h.slot_arrays _ (hslot.trans_le h.used_le)
  cases exec_effect he with
  | refused _ st => exact h.raiseError st
  | answered _ d => exact h.respond _ d
  | allocated n w hconfig hfree =>
    exact (h.allocate hfree (Slot.allocated_loaded _ hconfig) rfl rfl).respond _ _
  | stored sl r g b dur hslot hroom hdur hlast =>
    have hloaded := (h.slot_loaded _ hslot).appended hroom (hslots sl hslot).1 (pt := ⟨r, g, b, dur⟩) hdur hlast
    exact (h.setSlot hslot hloaded (by simp) rfl id).respond _ _
  | completed sl r g b dur hslot hroom hdur hlast =>
    obtain ⟨hpt, hdelta⟩ := hslots sl hslot
    have hloaded := (h.slot_loaded _ hslot).completed hroom hpt hdelta (pt := ⟨r, g, b, dur⟩) hdur hlast
    refine ((h.setSlot hslot hloaded (by simp) (by simp [Slot.completed]) fun _ => rfl).activate hslot ?_).respond
      _ _
    rw [s.slot_setSlot_self _ _ (h.lt_slots hslot), Slot.completed_life]
  | started sl hslot hready => exact (h.activate hslot hready).respond _ _
  | stepped => exact (h.setLeds (List.length_map _)).respond _ _

/-- Settles O51, by the outcomes of a step: idle, a command, an illegal word or a reset. -/
theorem invKeptByStep : Obligations.InvKeptByStep := by
  unfold Obligations.InvKeptByStep
  intro s t h hstep
  rcases step_cases hstep with ⟨-, rfl⟩ | ⟨w, rest, i, -, -, he⟩ | ⟨w, rest, e, -, -, rfl⟩ |
    ⟨e, rest, -, -, rfl⟩
  · exact h
  · exact exec_keeps_inv h.popHost he
  · exact h.popHost.raiseError _
  · exact h.popHost.applyReset

end Sys2Proof.Machine

namespace Sys2Proof.Machine

/-! ## Reset events (10_state.md R37) -/

theorem step_of_reset {s : State} {e : HostEvent} {rest : List HostEvent}
    (he : e = .reset ∨ ∃ w, e = .resetDuring w) (hin : s.hostIn = e :: rest) :
    step s = .next s.popHost.applyReset := by
  rcases he with rfl | ⟨w, rfl⟩ <;> simp [step, hin, runEvent]

@[simp] theorem State.applyReset_slot (s : State) (i : Nat) : s.applyReset.slot i = Slot.blank s.params :=
  State.resetWith_slot s.params i

theorem State.resetWith_led (p : Params) (k : Nat) : (State.resetWith p).led k = Led.blank := by
  simp only [State.led, State.resetWith_leds, List.getD_eq_getElem?_getD, List.getElem?_replicate]
  split <;> rfl

@[simp] theorem State.applyReset_led (s : State) (k : Nat) : s.applyReset.led k = Led.blank :=
  State.resetWith_led s.params k

/-- Settles O9: both reset events give the state of `applyReset`. -/
theorem resetEventRestoresReset : Obligations.ResetEventRestoresReset := by
  unfold Obligations.ResetEventRestoresReset
  intro s e rest he hin
  refine ⟨_, step_of_reset he hin, ?_, ?_, fun k _ => ?_, fun i _ => ?_, rfl, rfl, rfl⟩
  · simp
  · simp
  · exact State.applyReset_led _ k
  · rw [State.applyReset_slot]
    exact ⟨rfl, rfl, rfl, rfl⟩

/-- Settles O60: every LED is blank at reset. -/
theorem phaseInvariantsHoldAtReset : Obligations.PhaseInvariantsHoldAtReset := by
  unfold Obligations.PhaseInvariantsHoldAtReset
  intro p
  refine ⟨fun k _ => ?_, rfl⟩
  rw [State.resetWith_led]
  exact Nat.zero_le _

/-! ## The response of a command and the FAULT bit it sets (10_state.md R32, 60_exceptions.md R158) -/

@[simp] theorem rspStatus_rspWord (st : Status) (d : RspData) : rspStatus (rspWord st d) = statusCode st :=
  BitVec.extractLsb'_append_eq_left

/-- The low byte of a response is that of its data. -/
theorem rspWord_low (st : Status) (d : RspData) : (rspWord st d).extractLsb' 0 8 = d.extractLsb' 0 8 := by
  rw [rspWord, BitVec.extractLsb'_append_eq_of_add_le]
  decide

theorem dataBytes_low (hi mid lo : U8) : (dataBytes hi mid lo).extractLsb' 0 8 = lo :=
  BitVec.extractLsb'_append_eq_right

/-- The status codes are distinct (60_exceptions.md R155). -/
theorem statusCode_inj {x y : Status} : statusCode x = statusCode y ↔ x = y := by
  cases x <;> cases y <;> decide

/-- The FAULT bit of a status, read from its code. -/
theorem faultAfter_eq (st : Status) (f : U8) : faultAfter st f =
    f ||| (if statusCode st = 0x07 then 0x01 else if statusCode st = 0x06 then 0x02 else 0) := by
  cases st <;> rfl

/-- No bit of FAULT is cleared. -/
theorem faultAfter_and_self (st : Status) (f : U8) : faultAfter st f &&& f = f := by
  ext i hi
  simp only [faultAfter, BitVec.getElem_and, BitVec.getElem_or]
  cases f[i] <;> simp

@[simp] theorem faultAfter_ok (f : U8) : faultAfter .ok f = f := BitVec.or_zero

theorem faultAfter_eq_self {st : Status} (hstale : st ≠ .stalePhase) (hillegal : st ≠ .illegalCommand) (f : U8) :
    faultAfter st f = f := by
  cases st
  case stalePhase => exact absurd rfl hstale
  case illegalCommand => exact absurd rfl hillegal
  all_goals exact BitVec.or_zero

/-- A command answers with one response, whose status fixes the FAULT bit it sets. Only STEP answers StalePhase,
and only an ill-formed term IllegalCommand. -/
theorem exec_response {i : Instr} {s t : State} (h : exec i s = .next t) :
    ∃ st d, t.hostOut = s.hostOut ++ [rspWord st d] ∧ t.fault = faultAfter st s.fault ∧
      (st = .stalePhase → i = .step) ∧ (st = .illegalCommand → i.wellFormed = false) := by
  cases exec_effect h with
  | refused _ st hstale hillegal => exact ⟨st, 0, rfl, rfl, hstale, hillegal⟩
  | answered _ d => exact ⟨.ok, d, rfl, (faultAfter_ok _).symm, nofun, nofun⟩
  | allocated => exact ⟨.ok, data8 s.used, rfl, (faultAfter_ok _).symm, nofun, nofun⟩
  | stored | completed | started | stepped => exact ⟨.ok, 0, rfl, (faultAfter_ok _).symm, nofun, nofun⟩

/-- A word decodes to well-formed commands only (30_encoding.md R77). -/
theorem wellFormed_of_decodeWord {w : CmdWord} {i : Instr} (h : decodeWord w = .ok i) : i.wellFormed = true := by
  unfold decodeWord at h
  split at h
  · nomatch h
  · next op _ =>
    split_ifs at h with hmask hch
    obtain rfl : operandsOf op w = i := by simpa using h
    cases op
    case readLed => simpa [operandsOf, Instr.wellFormed, channelSelects] using hch
    all_goals rfl

/-- An accepted word has one response, whose status fixes the FAULT bit it sets: IllegalCommand answers exactly
the words that decode as no command. -/
theorem command_response {s t : State} {w : CmdWord} {rest : List HostEvent} (hin : s.hostIn = .command w :: rest)
    (h : step s = .next t) :
    ∃ st d, t.hostOut = s.hostOut ++ [rspWord st d] ∧ t.fault = faultAfter st s.fault ∧
      (st = .stalePhase → decodeWord w = .ok .step) ∧
      (st = .illegalCommand ↔ ∃ e, decodeWord w = .error e) := by
  rcases step_cases h with ⟨he, -⟩ | ⟨w', rest', i, he, hd, hexec⟩ | ⟨w', rest', e, he, hd, rfl⟩ |
    ⟨e, rest', he, hreset, -⟩ <;> rw [hin] at he
  · nomatch he
  · obtain ⟨rfl, rfl⟩ : w = w' ∧ rest = rest' := by simpa using he
    obtain ⟨st, d, hout, hfault, hstale, hillegal⟩ := exec_response hexec
    refine ⟨st, d, hout, hfault, fun hst => by rw [hd, hstale hst], fun hst => ?_, fun ⟨e, hderr⟩ => ?_⟩
    · exact absurd (wellFormed_of_decodeWord hd) (by simp [hillegal hst])
    · simp [hd] at hderr
  · obtain ⟨rfl, rfl⟩ : w = w' ∧ rest = rest' := by simpa using he
    exact ⟨.illegalCommand, 0, rfl, rfl, nofun, iff_of_true rfl ⟨e, hd⟩⟩
  · obtain ⟨rfl, -⟩ : .command w = e ∧ rest = rest' := by simpa using he
    simp at hreset

/-- Settles O27: the status of the response fixes the FAULT bit, and the reset state and READ_STATUS are read off. -/
theorem faultRegisterSticky : Obligations.FaultRegisterSticky := by
  unfold Obligations.FaultRegisterSticky
  refine ⟨fun s t w rest hin h => ?_, fun s t e rest he hin h => ?_, fun s => ?_⟩
  · obtain ⟨st, d, hout, hfault, hstale, hillegal⟩ := command_response hin h
    refine ⟨_, hout, ?_, ?_, ?_, ?_, ?_⟩
    · rw [hfault, rspStatus_rspWord, faultAfter_eq]
    · rw [hfault, faultAfter_reserved]
    · rw [hfault, faultAfter_and_self]
    · rw [rspStatus_rspWord]
      exact fun hcode => hstale (statusCode_inj.mp hcode)
    · rw [rspStatus_rspWord, ← hillegal]
      exact statusCode_inj (y := .illegalCommand)
  · rw [step_of_reset he hin] at h
    obtain rfl : s.popHost.applyReset = t := by simpa using h
    rfl
  · refine ⟨_, _, rfl, rfl, rfl, ?_⟩
    rw [rspWord_low, dataBytes_low, faultRead, faultImplemented]

/-! ## What each command may write (10_state.md R36, 20_memory.md R53) -/

section
variable {i : Instr} {s t : State} (h : exec i s = .next t)
include h

theorem exec_params : t.params = s.params := by cases exec_effect h <;> rfl

theorem exec_hostIn : t.hostIn = s.hostIn := by cases exec_effect h <;> rfl

/-- Only APPEND_CP, START_GRADIENT and STEP write the LED memory. -/
theorem exec_leds (happend : i.op ≠ .appendCp) (hstart : i.op ≠ .startGradient) (hstep : i.op ≠ .step) :
    t.leds = s.leds := by
  cases exec_effect h with
  | refused | answered | allocated | stored => rfl
  | completed => exact absurd rfl happend
  | started => exact absurd rfl hstart
  | stepped => exact absurd rfl hstep

/-- Only ADD_GRADIENT and APPEND_CP write slots. -/
theorem exec_slots (hadd : i.op ≠ .addGradient) (happend : i.op ≠ .appendCp) : t.slots = s.slots := by
  cases exec_effect h with
  | refused | answered | started | stepped => rfl
  | allocated => exact absurd rfl hadd
  | stored | completed => exact absurd rfl happend

/-- Only ADD_GRADIENT writes `USED`. -/
theorem exec_used (hadd : i.op ≠ .addGradient) : t.used = s.used := by
  cases exec_effect h with
  | refused | answered | stored | completed | started | stepped => rfl
  | allocated => exact absurd rfl hadd

/-- Only APPEND_CP and START_GRADIENT write `ACTIVE`. -/
theorem exec_active (happend : i.op ≠ .appendCp) (hstart : i.op ≠ .startGradient) : t.active = s.active := by
  cases exec_effect h with
  | refused | answered | allocated | stored | stepped => rfl
  | completed => exact absurd rfl happend
  | started => exact absurd rfl hstart

/-- Of the commands only STEP sets a FAULT bit. -/
theorem exec_fault (hwf : i.wellFormed = true) (hstep : i.op ≠ .step) : t.fault = s.fault := by
  obtain ⟨st, d, -, hfault, hstale, hillegal⟩ := exec_response h
  rw [hfault, faultAfter_eq_self]
  · rintro rfl
    exact hstep (congrArg Instr.op (hstale rfl))
  · rintro rfl
    exact absurd hwf (by simp [hillegal])

end

/-- What a slot write keeps of the slot is kept, also when the write lands past the array's end. -/
theorem State.slot_setSlot_congr {α : Type} (f : Slot → α) (s : State) {i : Nat} {sl : Slot}
    (h : f sl = f (s.slot i)) : f ((s.setSlot i sl).slot i) = f (s.slot i) := by
  rw [State.slot_setSlot]
  split
  · exact h
  · rfl

/-- ADD_GRADIENT writes slot `USED` only, and keeps its points and deltas. -/
theorem execAddGradient_slots {n : U8} {w : U16} {s t : State} (h : exec (.addGradient n w) s = .next t) :
    (∀ j, j ≠ s.used.toNat → t.slot j = s.slot j) ∧
      (t.slot s.used.toNat).pt = (s.slot s.used.toNat).pt ∧
      (t.slot s.used.toNat).delta = (s.slot s.used.toNat).delta := by
  cases exec_effect h with
  | refused | answered => exact ⟨fun _ _ => rfl, rfl, rfl⟩
  | allocated =>
    exact ⟨fun j hj => s.slot_setSlot_ne _ hj.symm, s.slot_setSlot_congr Slot.pt rfl,
      s.slot_setSlot_congr Slot.delta rfl⟩

/-- APPEND_CP writes its own slot only, and keeps its `N` and `W`. -/
theorem execAppendCp_slots {sl r g b dur : U8} {s t : State} (h : exec (.appendCp sl r g b dur) s = .next t) :
    (∀ j, j ≠ sl.toNat → t.slot j = s.slot j) ∧
      (t.slot sl.toNat).n = (s.slot sl.toNat).n ∧ (t.slot sl.toNat).w = (s.slot sl.toNat).w := by
  cases exec_effect h with
  | refused | answered => exact ⟨fun _ _ => rfl, rfl, rfl⟩
  | stored | completed =>
    exact ⟨fun j hj => s.slot_setSlot_ne _ hj.symm, s.slot_setSlot_congr Slot.n rfl,
      s.slot_setSlot_congr Slot.w rfl⟩

/-- Settles O26, from the frame of each piece of state. -/
theorem writeSetsPerCommand : Obligations.WriteSetsPerCommand := by
  unfold Obligations.WriteSetsPerCommand
  intro i s t hwf h
  obtain ⟨st, d, hout, -⟩ := exec_response h
  refine ⟨exec_params h, exec_hostIn h, ⟨_, hout⟩, exec_leds h, exec_slots h, exec_used h, exec_active h,
    exec_fault h hwf, ?_, ?_⟩
  · rintro n w rfl
    exact execAddGradient_slots h
  · rintro sl r g b d rfl
    exact execAppendCp_slots h

/-! ## ACTIVE (10_state.md R31) -/

/-- A write to an allocated slot lands. -/
theorem State.Inv.slot_setSlot {s : State} (h : s.Inv) {i : Nat} (hi : i < s.used.toNat) (sl : Slot) :
    (s.setSlot i sl).slot i = sl :=
  s.slot_setSlot_self i sl (h.lt_slots hi)

/-- A write to the next free slot lands. -/
theorem State.Inv.slot_setSlot_used {s : State} (h : s.Inv) (hfree : s.used.toNat ≠ s.params.maxGradients)
    (sl : Slot) : (s.setSlot s.used.toNat sl).slot s.used.toNat = sl :=
  s.slot_setSlot_self _ sl (h.slot_count ▸ lt_of_le_of_ne h.used_le hfree)

/-- A command leaves ACTIVE alone or activates the slot it names, which is then READY. -/
theorem exec_active_cases {i : Instr} {s t : State} (hinv : s.Inv) (h : exec i s = .next t) :
    t.active = s.active ∨
    ∃ sl, (i = .startGradient sl ∨ ∃ r g b d, i = .appendCp sl r g b d) ∧
      t.active = sl ∧ sl.toNat < t.used.toNat ∧ (t.slot sl.toNat).life = .ready := by
  cases exec_effect h with
  | refused | answered | allocated | stored | stepped => exact .inl rfl
  | completed sl r g b dur hslot =>
    refine .inr ⟨sl, .inr ⟨r, g, b, dur, rfl⟩, rfl, hslot, ?_⟩
    rw [State.respond_slot, State.activate_slot, hinv.slot_setSlot hslot, Slot.completed_life]
  | started sl hslot hready => exact .inr ⟨sl, .inl rfl, rfl, hslot, hready⟩

/-- Settles O28: of the outcomes of a step only a command and a reset write ACTIVE. -/
theorem activeChangesOnlyByActivation : Obligations.ActiveChangesOnlyByActivation := by
  unfold Obligations.ActiveChangesOnlyByActivation
  intro s t hinv h
  rcases step_cases h with ⟨-, rfl⟩ | ⟨w, rest, i, hin, hd, he⟩ | ⟨w, rest, e, -, -, rfl⟩ |
    ⟨e, rest, hin, he, rfl⟩
  · exact .inl rfl
  · rcases exec_active_cases hinv.popHost he with hsame | ⟨sl, hi, hactive⟩
    · exact .inl hsame
    · exact .inr (.inr ⟨w, rest, i, sl, hin, hd, hi, hactive⟩)
  · exact .inl rfl
  · exact .inr (.inl ⟨e, rest, hin, he, rfl⟩)

/-! ## The lifecycle of a slot (10_state.md R33) -/

section
variable {p : Params} {sl : Slot} (h : sl.Loaded p)
include h

/-- An allocated slot is READY when all its points are appended, and FILLING before. -/
theorem Slot.Loaded.ready_iff : sl.life = .ready ↔ sl.count = sl.n := by
  rw [h.life_eq]
  split_ifs with hfull <;> simp [hfull]

theorem Slot.Loaded.filling_iff : sl.life = .filling ↔ sl.count ≠ sl.n := by
  rw [h.life_eq]
  split_ifs with hfull <;> simp [hfull]

end

/-- No slot at or past `USED` has left EMPTY. -/
theorem State.Inv.life_of_used_le {s : State} (h : s.Inv) {i : Nat} (hi : s.used.toNat ≤ i) :
    (s.slot i).life = .empty := by
  by_cases hmax : i < s.params.maxGradients
  · exact (h.slot_empty i hmax).mpr hi
  · rw [State.slot, List.getD_eq_default _ _ (h.slot_count ▸ not_lt.mp hmax), Slot.blank_life]

theorem State.Inv.lt_used {s : State} (h : s.Inv) {i : Nat} (hi : (s.slot i).life ≠ .empty) :
    i < s.used.toNat :=
  not_le.mp (mt h.life_of_used_le hi)

/-- The transitions that a command can give a slot. -/
theorem exec_life_cases {i : Instr} {s t : State} (hinv : s.Inv) (h : exec i s = .next t) (j : Nat) :
    (t.slot j).life = (s.slot j).life ∨
    (∃ n v, i = .addGradient n v ∧ j = s.used.toNat ∧ (s.slot j).life = .empty ∧ (t.slot j).life = .filling ∧
      (t.slot j).count = 0) ∨
    (∃ sl r g b d, i = .appendCp sl r g b d ∧ j = sl.toNat ∧ (s.slot j).life = .filling ∧
      (t.slot j).life = .ready ∧ (s.slot j).count.toNat + 1 = (s.slot j).n.toNat) := by
  cases exec_effect h with
  | refused | answered | started | stepped => exact .inl rfl
  | allocated n w hconfig hfree =>
    by_cases hj : j = s.used.toNat
    · subst hj
      refine .inr (.inl ⟨n, w, rfl, rfl, hinv.life_of_used_le le_rfl, ?_⟩)
      rw [State.respond_slot, State.setUsed_slot, hinv.slot_setSlot_used hfree]
      exact ⟨rfl, rfl⟩
    · exact .inl (congrArg Slot.life (s.slot_setSlot_ne _ (Ne.symm hj)))
  | stored sl =>
    by_cases hj : j = sl.toNat
    · subst hj
      exact .inl (s.slot_setSlot_congr Slot.life rfl)
    · exact .inl (congrArg Slot.life (s.slot_setSlot_ne _ (Ne.symm hj)))
  | completed sl r g b dur hslot hroom hdur hlast =>
    by_cases hj : j = sl.toNat
    · subst hj
      refine .inr (.inr ⟨sl, r, g, b, dur, rfl, rfl, (hinv.slot_loaded _ hslot).filling_iff.mpr hroom, ?_, hlast⟩)
      rw [State.respond_slot, State.activate_slot, hinv.slot_setSlot hslot, Slot.completed_life]
    · exact .inl (congrArg Slot.life (s.slot_setSlot_ne _ (Ne.symm hj)))

/-- An append to a FILLING slot with a duration passes every check. -/
theorem execAppendCp_of_filling {s t : State} {sl r g b dur : U8} (hinv : s.Inv)
    (h : exec (.appendCp sl r g b dur) s = .next t) (hdur : dur ≠ 0) (hlife : (s.slot sl.toNat).life = .filling) :
    sl.toNat < s.used.toNat ∧ t = (s.appendPoint sl ⟨r, g, b, dur⟩).respond .ok 0 := by
  have hslot : sl.toNat < s.used.toNat := hinv.lt_used (by simp [hlife])
  have hroom := (hinv.slot_loaded _ hslot).filling_iff.mp hlife
  rcases execAppendCp_cases h with ⟨hs, -⟩ | ⟨-, hc, -⟩ | ⟨-, -, hd, -⟩ | ⟨-, -, -, ht⟩
  · exact absurd hslot (not_lt.mpr hs)
  · exact absurd hc hroom
  · exact absurd hd hdur
  · exact ⟨hslot, ht⟩

/-- An append to a READY slot is refused. -/
theorem execAppendCp_of_ready {s t : State} {sl r g b dur : U8} (hinv : s.Inv)
    (h : exec (.appendCp sl r g b dur) s = .next t) (hlife : (s.slot sl.toNat).life = .ready) :
    t = s.raiseError .capacityExceeded := by
  have hslot : sl.toNat < s.used.toNat := hinv.lt_used (by simp [hlife])
  have hfull := (hinv.slot_loaded _ hslot).ready_iff.mp hlife
  rcases execAppendCp_cases h with ⟨hs, -⟩ | ⟨-, -, ht⟩ | ⟨-, hc, -, -⟩ | ⟨-, hc, -, -⟩
  · exact absurd hslot (not_lt.mpr hs)
  · exact ht
  · exact absurd hfull hc
  · exact absurd hfull hc

/-- What an append leaves of a FILLING slot: READY, active and with its delta table after the Nth point, FILLING
before (40_gradient_load.md R91). -/
theorem execAppendCp_life {s t : State} {sl r g b dur : U8} (hinv : s.Inv)
    (h : exec (.appendCp sl r g b dur) s = .next t) (hdur : dur ≠ 0) (hlife : (s.slot sl.toNat).life = .filling) :
    (t.slot sl.toNat).life =
      (if (s.slot sl.toNat).count.toNat + 1 = (s.slot sl.toNat).n.toNat then .ready else .filling) ∧
    ((t.slot sl.toNat).life = .ready → t.active = sl) := by
  obtain ⟨hslot, rfl⟩ := execAppendCp_of_filling hinv h hdur hlife
  rcases appendPoint_cases s sl ⟨r, g, b, dur⟩ with ⟨hlast, heq⟩ | ⟨hlast, heq⟩
  · rw [heq, if_pos hlast, State.respond_slot, State.activate_slot, hinv.slot_setSlot hslot]
    exact ⟨rfl, fun _ => rfl⟩
  · rw [heq, if_neg hlast, State.respond_slot, hinv.slot_setSlot hslot, Slot.appended_life, hlife]
    exact ⟨rfl, nofun⟩

/-- Settles O30: the transitions a command can give a slot are those of `exec_life_cases`; the delta table of a slot
that becomes READY is part of the invariant, which the append keeps. -/
theorem slotLifecycle : Obligations.SlotLifecycle := by
  unfold Obligations.SlotLifecycle
  refine ⟨fun s t j hinv h _ => ?_, fun s t sl r g b d hinv h hdur hlife => ?_,
    fun s t sl r g b d hinv h hlife => ?_, fun s t n w hinv h hused => ?_, fun s t e rest j he hin h => ?_⟩
  · rcases step_cases h with ⟨-, rfl⟩ | ⟨w, rest, i, hin, hd, he⟩ | ⟨w, rest, e, -, -, rfl⟩ |
      ⟨e, rest, hin, he, rfl⟩
    · exact .inl rfl
    · rcases exec_life_cases hinv.popHost he j with hsame | ⟨n, v, rfl, hfilling⟩ |
        ⟨sl, r, g, b, d, rfl, hready⟩
      · exact .inl hsame
      · exact .inr (.inr (.inl ⟨w, rest, n, v, hin, hd, hfilling⟩))
      · exact .inr (.inr (.inr ⟨w, rest, sl, r, g, b, d, hin, hd, hready⟩))
    · exact .inl rfl
    · exact .inr (.inl ⟨e, rest, hin, he, by rw [State.applyReset_slot, Slot.blank_life]⟩)
  · obtain ⟨hnext, hactive⟩ := execAppendCp_life hinv h hdur hlife
    obtain ⟨-, hn, -⟩ := execAppendCp_slots h
    have hinv' := exec_keeps_inv hinv h
    refine ⟨hnext, fun hready => ⟨hactive hready, fun i hi => ?_⟩⟩
    rw [(hinv'.slot_loaded _ (hinv'.lt_used (by simp [hready]))).deltas hready i (hn ▸ hi), exec_params h]
  · rw [execAppendCp_of_ready hinv h hlife]
    rfl
  · cases exec_effect h with
    | refused | answered => exact absurd rfl hused
    | allocated _ _ hconfig hfree =>
      refine ⟨hinv.life_of_used_le le_rfl, ?_⟩
      rw [State.respond_slot, State.setUsed_slot, hinv.slot_setSlot_used hfree]
      exact ⟨rfl, rfl⟩
  · rw [step_of_reset he hin] at h
    obtain rfl : s.popHost.applyReset = t := by simpa using h
    rw [State.applyReset_slot, Slot.blank_life]

end Sys2Proof.Machine

/-! # Proofs about step counts (10_state.md R35, 41_activation.md R102, R106) -/

namespace Sys2Proof.Machine

/-! ## Rounding and the order (00_scope.md R12)
Magnitudes up to `2^24` cover every value that a placement computes. -/

theorem abs_le_range32 {x : Rat} (h : |x| ≤ 2 ^ 24) :
    |x| ≤ ((2 ^ 24 - 1 : Nat) : Rat) * ((2 ^ 104 : Nat) : Rat) :=
  h.trans (by norm_num)

section
variable {x y : Rat} (hx : |x| ≤ 2 ^ 24) (hy : |y| ≤ 2 ^ 24)
include hx hy

/-- No rounded value is nearer to `x` than its own. -/
theorem nearest32_error_le : |nearest32 x - x| ≤ |nearest32 y - x| := by
  obtain ⟨_, _, _, hbest⟩ := nearest32IsNearestEven x (abs_le_range32 hx)
  obtain ⟨v, hfinite, hv, -⟩ := nearest32IsNearestEven y (abs_le_range32 hy)
  rw [← hv]
  exact (hbest v hfinite).1

/-- Rounding is monotone: if it swapped two values, each would lie on the wrong side of the middle of the rounded
ones. -/
theorem nearest32_mono (h : x ≤ y) : nearest32 x ≤ nearest32 y := by
  have hxy := nearest32_error_le hx hy
  have hyx := nearest32_error_le hy hx
  by_contra hswap
  rw [not_le] at hswap
  have hx_ge : nearest32 x + nearest32 y ≤ 2 * x := by nlinarith [sq_le_sq.mpr hxy]
  have hy_le : 2 * y ≤ nearest32 x + nearest32 y := by nlinarith [sq_le_sq.mpr hyx]
  have heq : x = y := by linarith
  exact absurd hswap (by rw [heq]; exact lt_irrefl _)

theorem fitD_mono (a : Arith) (h : x ≤ y) : fitD a x ≤ fitD a y := by
  cases a with
  | exact => exact h
  | binary32 => exact nearest32_mono hx hy h

end

/-- A power of two with a negative exponent, as a quotient. -/
theorem pow2_neg_add (n u : Nat) : pow2 (-n + u) = 2 ^ u / 2 ^ n := by
  rw [pow2_eq_zpow, zpow_add₀ two_ne_zero, zpow_neg, zpow_natCast, zpow_natCast]
  ring

/-- Shifting up and the unit that undoes it. -/
theorem two_pow_sub_mul_pow2 {n u : Nat} (h : u ≤ n) : (2 : Rat) ^ (n - u) * pow2 (-n + u) = 1 := by
  rw [pow2_neg_add, ← mul_div_assoc, pow_sub_mul_pow 2 h, div_self (by positivity)]

/-- A natural of at most 24 bits is a value of the format, written with a significand shifted up to 24 bits. -/
theorem nearest32_natCast {n : Nat} (hn : n < 2 ^ 24) : nearest32 n = n := by
  rcases Nat.eq_zero_or_pos n with rfl | hpos
  · simp
  · have hlog : Nat.log2 n ≤ 23 := Nat.le_of_lt_succ ((Nat.log2_lt hpos.ne').mpr hn)
    have hshift : 2 ^ (23 - Nat.log2 n) * 2 ^ Nat.log2 n = 2 ^ 23 := pow_sub_mul_pow 2 hlog
    have hlo : 2 ^ Nat.log2 n ≤ n := Nat.log2_self_le hpos.ne'
    have hhi : n < 2 ^ Nat.log2 n * 2 := Nat.lt_log2_self
    have hpow := Nat.two_pow_pos (23 - Nat.log2 n)
    have hformat : InFormat (n * 2 ^ (23 - Nat.log2 n) : Nat) (-(23 : Nat) + Nat.log2 n) :=
      ⟨by omega, by rw [Int.natAbs_natCast]; nlinarith, .inl (by rw [Int.natAbs_natCast]; nlinarith)⟩
    have hvalue : (((n * 2 ^ (23 - Nat.log2 n) : Nat) : Int) : Rat) * pow2 (-(23 : Nat) + Nat.log2 n) = n := by
      rw [Int.cast_natCast, Nat.cast_mul, Nat.cast_pow, Nat.cast_ofNat, mul_assoc, two_pow_sub_mul_pow2 hlog,
        mul_one]
    rw [← hvalue, hformat.nearest32_eq]

theorem fitD_natCast (a : Arith) {n : Nat} (hn : n < 2 ^ 24) : fitD a n = n := by
  cases a with
  | exact => rfl
  | binary32 => exact nearest32_natCast hn

theorem toD_natCast (a : Arith) {n : Nat} (hn : n < 2 ^ 24) : toD a (n : Int) = n := by
  rw [toD, Int.cast_natCast, fitD_natCast a hn]

@[simp] theorem fitD_zero (a : Arith) : fitD a 0 = 0 := by cases a <;> simp

/-- Rounding does not cross a natural bound. -/
theorem fitD_le_natCast (a : Arith) {x : Rat} {n : Nat} (hn : n < 2 ^ 24) (h0 : 0 ≤ x) (h : x ≤ n) :
    fitD a x ≤ n := by
  have hn' : (n : Rat) ≤ 2 ^ 24 := by exact_mod_cast hn.le
  calc fitD a x ≤ fitD a n :=
        fitD_mono (by rw [abs_of_nonneg h0]; linarith) (by rwa [abs_of_nonneg (Nat.cast_nonneg n)]) a h
    _ = n := fitD_natCast a hn

theorem fitD_nonneg (a : Arith) {x : Rat} (h0 : 0 ≤ x) (h : x ≤ 2 ^ 24) : 0 ≤ fitD a x := by
  calc (0 : Rat) = fitD a 0 := (fitD_zero a).symm
    _ ≤ fitD a x := fitD_mono (by norm_num) (by rwa [abs_of_nonneg h0]) a h0

/-! ## A fraction of a binary32 value, and its product with a duration (41_activation.md R102) -/

/-- The fraction of a multiple of `2^-24` is one too. -/
theorem fract_le_of_mul_eq_intCast {x : Rat} {z : Int} (h : x * 2 ^ 24 = z) : Int.fract x ≤ 1 - 1 / 2 ^ 24 := by
  have hlt : z < (⌊x⌋ + 1) * 2 ^ 24 := by
    have hfloor : x * 2 ^ 24 < (⌊x⌋ + 1) * 2 ^ 24 := by linarith [Int.lt_floor_add_one x]
    rw [h] at hfloor
    exact_mod_cast hfloor
  have hle : (z : Rat) ≤ (⌊x⌋ + 1) * 2 ^ 24 - 1 := by exact_mod_cast Int.le_sub_one_of_lt hlt
  rw [← Int.self_sub_floor]
  linarith

/-- The fraction of a nonnegative binary32 value stays a unit of `2^-24` below 1: a value with a finer unit is at
most one half. -/
theorem fract_nearest32_le {y : Rat} (h0 : 0 ≤ nearest32 y) : Int.fract (nearest32 y) ≤ 1 - 1 / 2 ^ 24 := by
  by_cases hy : y = 0
  · subst hy
    norm_num [Int.fract_zero]
  rw [nearest32_eq_mul hy] at h0 ⊢
  rcases le_or_gt (-24) (ulpExponent y) with hcoarse | hfine
  · obtain ⟨d, hd⟩ := Int.le.dest hcoarse
    have hunit : pow2 (-24) * 2 ^ 24 = 1 := by rw [pow2_eq_zpow]; norm_num
    refine fract_le_of_mul_eq_intCast (z := roundedSignificand y * 2 ^ d) ?_
    rw [← hd, pow2_add_natCast, mul_assoc, mul_assoc, hunit]
    push_cast
    ring
  · have hhalf : (roundedSignificand y : Rat) * pow2 (ulpExponent y) ≤ 1 / 2 := by
      have hsig : (roundedSignificand y : Rat) ≤ 2 ^ 24 := by
        have := natAbs_nearestEven_le (abs_div_ulp_lt hy).le
        have hle : roundedSignificand y ≤ 2 ^ 24 := by unfold roundedSignificand; omega
        exact_mod_cast hle
      have hpow : pow2 (ulpExponent y) ≤ pow2 (-25) := (pow2_le_iff _ _).mpr (by omega)
      calc (roundedSignificand y : Rat) * pow2 (ulpExponent y) ≤ 2 ^ 24 * pow2 (-25) :=
            mul_le_mul hsig hpow (pow2_pos _).le (by norm_num)
        _ = 1 / 2 := by rw [pow2_eq_zpow]; norm_num
    rw [Int.fract_eq_self.mpr ⟨h0, hhalf.trans_lt (by norm_num)⟩]
    exact hhalf.trans (by norm_num)

/-- The binary32 value next below a natural `d`, where `2^u` is the power of two that `d` reaches or stays below. -/
theorem nearest32_pred {d u : Nat} (hu : u ≤ 24) (hle : d ≤ 2 ^ u) (hlt : 2 ^ u < 2 * d) :
    nearest32 ((d : Rat) - 2 ^ u / 2 ^ 24) = (d : Rat) - 2 ^ u / 2 ^ 24 := by
  have hshift : 2 ^ (24 - u) * 2 ^ u = 2 ^ 24 := pow_sub_mul_pow 2 hu
  have hpos := Nat.two_pow_pos (24 - u)
  have hhi : d * 2 ^ (24 - u) ≤ 2 ^ 24 := by nlinarith
  have hlo : 2 ^ 23 < d * 2 ^ (24 - u) := by nlinarith
  have hformat : InFormat ((d * 2 ^ (24 - u) : Nat) - 1 : Int) (-(24 : Nat) + u) :=
    ⟨by omega, by omega, .inl (by omega)⟩
  have hvalue : (((d * 2 ^ (24 - u) : Nat) - 1 : Int) : Rat) * pow2 (-(24 : Nat) + u) =
      (d : Rat) - 2 ^ u / 2 ^ 24 := by
    rw [Int.cast_sub, Int.cast_natCast, Nat.cast_mul, Nat.cast_pow, Nat.cast_ofNat, Int.cast_one, sub_mul,
      mul_assoc, two_pow_sub_mul_pow2 hu, pow2_neg_add, mul_one, one_mul]
  rw [← hvalue, hformat.nearest32_eq]

/-- The least power of two that reaches `d` is below `2d`. -/
theorem two_pow_clog_lt {d : Nat} (hd : 1 ≤ d) : 2 ^ Nat.clog 2 d < 2 * d := by
  rcases hd.eq_or_lt with rfl | hd
  · decide
  · have hpred := Nat.pow_pred_clog_lt_self one_lt_two hd
    have hclog := Nat.clog_pos one_lt_two hd
    rw [← Nat.succ_pred_eq_of_pos hclog, pow_succ]
    omega

/-- A fraction of the format times a duration rounds to less than the duration: the value next below the duration
is nearer. -/
theorem nearest32_mul_lt {f : Rat} {d : Nat} (h0 : 0 ≤ f) (hf : f ≤ 1 - 1 / 2 ^ 24) (hd : 1 ≤ d)
    (hd' : d < 2 ^ 24) : nearest32 (f * d) < d := by
  have hdpos : (1 : Rat) ≤ d := by exact_mod_cast hd
  have hdle : (d : Rat) ≤ 2 ^ 24 := by exact_mod_cast hd'.le
  have hlt := two_pow_clog_lt hd
  have hle : d ≤ 2 ^ Nat.clog 2 d := Nat.le_pow_clog one_lt_two d
  have hu : Nat.clog 2 d ≤ 24 := Nat.clog_le_of_le_pow hd'.le
  have hpred := nearest32_pred hu hle hlt
  have hltQ : (2 : Rat) ^ Nat.clog 2 d < 2 * d := by exact_mod_cast hlt
  have hleQ : (d : Rat) ≤ 2 ^ Nat.clog 2 d := by exact_mod_cast hle
  set q : Rat := 2 ^ Nat.clog 2 d
  have hvrange : |(d : Rat) - d / 2 ^ 24| ≤ 2 ^ 24 := by rw [abs_of_nonneg] <;> linarith
  have hfd : f * d ≤ (d : Rat) - d / 2 ^ 24 := by nlinarith
  have hfrange : |f * d| ≤ 2 ^ 24 := by
    rw [abs_of_nonneg (by positivity)]
    linarith
  refine (nearest32_mono hfrange hvrange hfd).trans_lt ?_
  have hnear := nearest32_error_le hvrange (y := (d : Rat) - q / 2 ^ 24) (by rw [abs_of_nonneg] <;> linarith)
  rw [hpred, abs_sub_comm (_ - q / 2 ^ 24), abs_of_nonneg (a := _ - (_ - q / 2 ^ 24)) (by linarith)] at hnear
  have habs := le_abs_self (nearest32 ((d : Rat) - d / 2 ^ 24) - ((d : Rat) - d / 2 ^ 24))
  linarith

/-! ## The placed step count (41_activation.md R102) -/

theorem placeStep_eq (a : Arith) (sl : Slot) (L j : Nat) : placeStep a sl L j =
    fitD a (subPoint a sl L j * (sl.point (pointIdx a sl L j)).dur.toNat) := by
  have hdur := (sl.point (pointIdx a sl L j)).dur.isLt
  rw [placeStep, mulD, toD_natCast a (by omega)]

section
variable (a : Arith) (sl : Slot) {L j : Nat} (hL : L ≤ 65535) (hj : j < L)
include hL hj

/-- The operands of `pointPos` are integers that both arithmetics hold exactly, so it is one quotient rounded once. -/
theorem pointPos_eq : pointPos a sl L j = fitD a ((j * sl.n.toNat : Nat) / L) := by
  have hn : sl.n.toNat ≤ 255 := Nat.le_of_lt_succ sl.n.isLt
  have hprod : j * sl.n.toNat ≤ 65535 * 255 := Nat.mul_le_mul (by omega) hn
  rw [pointPos, divD, toD_natCast a (by omega), toD_natCast a (by omega)]

/-- The exact quotient is at most `N`. -/
theorem pointPos_bounds : 0 ≤ pointPos a sl L j ∧ pointPos a sl L j ≤ sl.n.toNat := by
  have hn : sl.n.toNat ≤ 255 := Nat.le_of_lt_succ sl.n.isLt
  have hLpos : (0 : Rat) < L := by exact_mod_cast Nat.zero_lt_of_lt hj
  have h0 : (0 : Rat) ≤ (j * sl.n.toNat : Nat) / L := by positivity
  have hle : ((j * sl.n.toNat : Nat) : Rat) / L ≤ sl.n.toNat := by
    rw [div_le_iff₀ hLpos, mul_comm j]
    exact_mod_cast Nat.mul_le_mul_left _ hj.le
  have hrange : (sl.n.toNat : Rat) ≤ 2 ^ 24 := by exact_mod_cast hn.trans (by norm_num)
  rw [pointPos_eq a sl hL hj]
  exact ⟨fitD_nonneg a h0 (hle.trans hrange), fitD_le_natCast a (by omega) h0 hle⟩

/-- `subPoint` is the fraction of `pointPos`. -/
theorem subPoint_eq : subPoint a sl L j = fitD a (Int.fract (pointPos a sl L j)) := by
  obtain ⟨h0, hle⟩ := pointPos_bounds a sl hL hj
  have hn : sl.n.toNat ≤ 255 := Nat.le_of_lt_succ sl.n.isLt
  have hfloor : 0 ≤ ⌊pointPos a sl L j⌋ := Int.floor_nonneg.mpr h0
  have hfloor_le : ⌊pointPos a sl L j⌋ ≤ sl.n.toNat :=
    Int.cast_le.mp ((Int.floor_le _).trans (by exact_mod_cast hle))
  have hidx : (pointIdx a sl L j : Int) = ⌊pointPos a sl L j⌋ := by
    rw [pointIdx, floorD_eq, Int.toNat_of_nonneg hfloor]
  rw [subPoint, subD, toD_natCast a (by omega), ← Int.self_sub_floor, ← hidx, Int.cast_natCast]

theorem subPoint_bounds : 0 ≤ subPoint a sl L j ∧ subPoint a sl L j ≤ 1 := by
  have h0 := Int.fract_nonneg (pointPos a sl L j)
  have hlt := Int.fract_lt_one (pointPos a sl L j)
  rw [subPoint_eq a sl hL hj]
  have hle := fitD_le_natCast a (n := 1) (by norm_num) h0 (by simpa using hlt.le)
  exact ⟨fitD_nonneg a h0 (by linarith), by simpa using hle⟩

/-- Under BINARY32 it is at most the greatest value below 1. -/
theorem subPoint_binary32_le : subPoint .binary32 sl L j ≤ 1 - 1 / 2 ^ 24 := by
  have hfract : Int.fract (pointPos .binary32 sl L j) ≤ 1 - 1 / 2 ^ 24 := by
    have h0 := (pointPos_bounds .binary32 sl hL hj).1
    rw [pointPos_eq .binary32 sl hL hj] at h0 ⊢
    exact fract_nearest32_le h0
  have h0 := Int.fract_nonneg (pointPos .binary32 sl L j)
  have hpred : nearest32 (1 - 1 / 2 ^ 24) = 1 - 1 / 2 ^ 24 := by
    simpa using nearest32_pred (d := 1) (u := 0) (by norm_num) le_rfl (by norm_num)
  rw [subPoint_eq .binary32 sl hL hj, ← hpred]
  exact nearest32_mono (by rw [abs_of_nonneg h0]; linarith) (by norm_num [abs_of_nonneg]) hfract

theorem placeStep_nonneg : 0 ≤ placeStep a sl L j := by
  obtain ⟨h0, h1⟩ := subPoint_bounds a sl hL hj
  have hdur : ((sl.point (pointIdx a sl L j)).dur.toNat : Rat) ≤ 2 ^ 24 := by
    exact_mod_cast (sl.point (pointIdx a sl L j)).dur.isLt.le.trans (by norm_num)
  rw [placeStep_eq]
  exact fitD_nonneg a (by positivity) ((mul_le_of_le_one_left (by positivity) h1).trans hdur)

/-- A placed LED is inside its segment (41_activation.md R106): `subPoint` stays far enough below 1 that rounding the
product does not reach the duration. -/
theorem placeStep_lt (hdur : 1 ≤ (sl.point (pointIdx a sl L j)).dur.toNat) :
    placeStep a sl L j < (sl.point (pointIdx a sl L j)).dur.toNat := by
  have hlt := (sl.point (pointIdx a sl L j)).dur.isLt
  obtain ⟨h0, -⟩ := subPoint_bounds a sl hL hj
  rw [placeStep_eq]
  cases a with
  | exact =>
    rw [subPoint_eq .exact sl hL hj, fitD_exact, fitD_exact]
    exact mul_lt_of_lt_one_left (by exact_mod_cast hdur) (Int.fract_lt_one _)
  | binary32 => exact nearest32_mul_lt h0 (subPoint_binary32_le sl hL hj) hdur (by omega)

/-- The placed step count, where the point has a duration: it is below it, and storing it as u8 loses nothing. -/
theorem placeLed_sc (hdur : 1 ≤ (sl.point (pointIdx a sl L j)).dur.toNat) :
    ((placeLed a sl L j).sc.toNat : Int) = ⌊placeStep a sl L j⌋ ∧
      (placeLed a sl L j).sc.toNat < (sl.point (pointIdx a sl L j)).dur.toNat := by
  have hlt := (sl.point (pointIdx a sl L j)).dur.isLt
  have h0 : 0 ≤ ⌊placeStep a sl L j⌋ := Int.floor_nonneg.mpr (placeStep_nonneg a sl hL hj)
  have hfloor : ⌊placeStep a sl L j⌋ < (sl.point (pointIdx a sl L j)).dur.toNat :=
    Int.floor_lt.mpr (by exact_mod_cast placeStep_lt a sl hL hj hdur)
  have hsc : ((placeLed a sl L j).sc.toNat : Int) = ⌊placeStep a sl L j⌋ := by
    rw [placeLed, floorD_eq, BitVec.toNat_ofInt]
    omega
  exact ⟨hsc, by omega⟩

/-- No placement gives the step count 255, whatever the slot holds. -/
theorem placeLed_sc_le : (placeLed a sl L j).sc.toNat ≤ 254 := by
  by_cases hdur : (sl.point (pointIdx a sl L j)).dur.toNat = 0
  · have hzero : placeStep a sl L j = 0 := by rw [placeStep_eq, hdur, Nat.cast_zero, mul_zero, fitD_zero]
    have hsc : (placeLed a sl L j).sc = 0 := by rw [placeLed, hzero]; rfl
    rw [hsc]
    exact Nat.zero_le _
  · have hlt := (sl.point (pointIdx a sl L j)).dur.isLt
    have := (placeLed_sc a sl hL hj (by omega)).2
    omega

end

/-! ## Every step keeps the bound (10_state.md R35) -/

/-- Every step count is at most 254. -/
def State.ScBounded (s : State) : Prop := ∀ k < s.params.numLeds, (s.led k).sc.toNat ≤ 254

/-- STEP advances a step count only while it is below a duration, which is at most 255 (42_step.md R123, R124). -/
theorem stepLed_sc_le (a : Arith) (sl : Slot) (l : Led) : (stepLed a sl l).sc.toNat ≤ 254 := by
  rw [stepLed]
  split
  · exact Nat.zero_le _
  · next hinside =>
    have hlt := (sl.point l.idx.toNat).dur.isLt
    rw [atBoundary, decide_eq_true_eq, not_le] at hinside
    rw [advanceLed, toNat_add_one_of_lt (by omega)]
    omega

/-- ACTIVATE places within the bound and keeps the trailing LEDs. -/
theorem State.ScBounded.activate {s : State} (h : s.ScBounded) (hleds : s.params.numLeds ≤ 65535) (sl : U8) :
    (s.activate sl).ScBounded := by
  intro k hk
  rw [State.activate_led]
  split
  · next hplaced =>
    have hL : ledsPerWave s.params (s.slot sl.toNat) ≤ 65535 := (Nat.div_le_self _ _).trans hleds
    have hpos : 0 < ledsPerWave s.params (s.slot sl.toNat) :=
      Nat.pos_of_mul_pos_left (Nat.zero_lt_of_lt hplaced.1)
    exact placeLed_sc_le _ _ hL (Nat.mod_lt k hpos)
  · exact h k hk

theorem State.ScBounded.applyReset (s : State) : s.applyReset.ScBounded := by
  intro k _
  rw [State.applyReset_led]
  exact Nat.zero_le _

theorem exec_keeps_scBounded {i : Instr} {s t : State} (hinv : s.Inv) (hsc : s.ScBounded)
    (h : exec i s = .next t) : t.ScBounded := by
  obtain ⟨⟨-, hleds⟩, -, -⟩ := hinv.legal
  cases exec_effect h with
  | refused | answered | allocated | stored => exact hsc
  | completed sl => exact State.ScBounded.activate (s := s.setSlot sl.toNat _) hsc hleds sl
  | started sl => exact hsc.activate hleds sl
  | stepped =>
    intro k hk
    rw [State.respond_led, State.setLeds_led, getD_map_stepLed _ _ _ (hinv.led_count ▸ hk)]
    exact stepLed_sc_le _ _ _

theorem step_keeps_scBounded {s t : State} (hinv : s.Inv) (hsc : s.ScBounded) (h : step s = .next t) :
    t.ScBounded := by
  rcases step_cases h with ⟨-, rfl⟩ | ⟨w, rest, i, -, -, he⟩ | ⟨w, rest, e, -, -, rfl⟩ |
    ⟨e, rest, -, -, rfl⟩
  · exact hsc
  · exact exec_keeps_scBounded hinv.popHost hsc he
  · exact hsc
  · exact State.ScBounded.applyReset _

/-- Settles O58: placement stays below the duration in both arithmetics, and STEP advances only below it. -/
theorem stepCountBoundKeptByStep : Obligations.StepCountBoundKeptByStep := by
  unfold Obligations.StepCountBoundKeptByStep
  intro s t hinv hsc h
  exact step_keeps_scBounded hinv hsc h

/-! ## Runs -/

/-- The invariant holds in every reachable state. -/
theorem Reachable.inv {p : Params} {s : State} (hp : p.Legal) (h : Reachable p s) : s.Inv := by
  induction h with
  | reset => exact resetWith_inv hp
  | present s e _ ih => exact { ih with }
  | step s t _ hs ih => exact invKeptByStep s t ih hs

/-- Settles O52, by induction on the run, whose states meet the invariant. -/
theorem stepCountStaysBelow255 : Obligations.StepCountStaysBelow255 := by
  unfold Obligations.StepCountStaysBelow255
  intro p s hp h
  induction h with
  | reset => exact (phaseInvariantsHoldAtReset p).1
  | present s e _ ih => exact ih
  | step s t hreach hs ih => exact step_keeps_scBounded (hreach.inv hp) ih hs

end Sys2Proof.Machine

/-! # Proofs about the ports and the slot memory (20_memory.md) -/

namespace Sys2Proof

/-! ## The bytes of a word (20_memory.md R51) -/

theorem cmdBytes_eq_map_range (w : CmdWord) :
    cmdBytes w = (List.range 8).map fun n => w.extractLsb' (8 * n) 8 := rfl

theorem rspBytes_eq_map_range (r : RspWord) :
    rspBytes r = (List.range 4).map fun n => r.extractLsb' (8 * n) 8 := rfl

/-- The eight bytes as a number, each byte above the one before it. -/
theorem cmdOfBytes_toNat (b0 b1 b2 b3 b4 b5 b6 b7 : U8) : (cmdOfBytes b0 b1 b2 b3 b4 b5 b6 b7).toNat =
    ((((((b7.toNat * 2 ^ 8 + b6.toNat) * 2 ^ 8 + b5.toNat) * 2 ^ 8 + b4.toNat) * 2 ^ 8 + b3.toNat) * 2 ^ 8
      + b2.toNat) * 2 ^ 8 + b1.toNat) * 2 ^ 8 + b0.toNat := by
  have append_byte {n : Nat} (x : BitVec n) (b : U8) : (x ++ b).toNat = x.toNat * 2 ^ 8 + b.toNat := by
    rw [BitVec.toNat_append, ← Nat.shiftLeft_add_eq_or_of_lt b.isLt, Nat.shiftLeft_eq]
  simp only [cmdOfBytes, append_byte]

/-- A command word is put together again from its own bytes. -/
theorem cmdOfBytes_extract (w : CmdWord) :
    cmdOfBytes (w.extractLsb' 0 8) (w.extractLsb' 8 8) (w.extractLsb' 16 8) (w.extractLsb' 24 8)
      (w.extractLsb' 32 8) (w.extractLsb' 40 8) (w.extractLsb' 48 8) (w.extractLsb' 56 8) = w := by
  apply BitVec.eq_of_toNat_eq
  simp only [cmdOfBytes_toNat, BitVec.extractLsb'_toNat, Nat.shiftRight_eq_div_pow]
  omega

theorem decodeBytes_cmdBytes (w : CmdWord) (rest : List U8) :
    decodeBytes (cmdBytes w ++ rest) = (decodeWord w).map fun i => (i, rest) := by
  simp only [cmdBytes, List.cons_append, List.nil_append, decodeBytes, cmdOfBytes_extract]
  cases decodeWord w <;> rfl

theorem decodeBytes_of_length_lt {bs : List U8} (h : bs.length < 8) : decodeBytes bs = .error .truncated := by
  unfold decodeBytes
  split
  · simp at h
    omega
  · rfl

/-- Settles O6: the bytes of a word are its slices at the multiples of 8, and put together they are the word. -/
theorem transportIsLittleEndian : Obligations.TransportIsLittleEndian := by
  unfold Obligations.TransportIsLittleEndian
  refine ⟨fun w n hn => ?_, fun r n hn => ?_, fun _ => rfl, fun _ => rfl, decodeBytes_cmdBytes,
    fun _ => decodeBytes_of_length_lt⟩
  · simp [cmdBytes_eq_map_range, hn]
  · simp [rspBytes_eq_map_range, hn]

/-- A table word selects the command that its command word decodes to. -/
theorem decodeTableWord_eq_some_iff {nbits w : Nat} {i : Instr} :
    decodeTableWord nbits w = some i ↔ decodeWord (tableCmdWord nbits w) = .ok i := by
  have hbytes := decodeBytes_cmdBytes (tableCmdWord nbits w) []
  rw [List.append_nil] at hbytes
  rw [decodeTableWord, hbytes]
  cases decodeWord (tableCmdWord nbits w) <;> simp [Except.map]

end Sys2Proof

namespace Sys2Proof.Machine

/-! ## The command of a step (20_memory.md R57) -/

theorem State.popHost_of_hostIn {s : State} {e : HostEvent} {rest : List HostEvent} (hin : s.hostIn = e :: rest) :
    s.popHost = { s with hostIn := rest } := by
  simp [State.popHost, hin]

theorem step_of_command {s : State} {w : CmdWord} {rest : List HostEvent} {i : Instr}
    (hin : s.hostIn = .command w :: rest) (hd : decodeWord w = .ok i) : step s = exec i s.popHost := by
  simp [step, hin, runEvent, runWord, hd]

/-- Taking the event just presented gives the state back. -/
@[simp] theorem State.popHost_withFetchWord (s : State) (nbits w : Nat) : (s.withFetchWord nbits w).popHost = s := rfl

/-- Settles O7: `withFetchWord` puts its word at the head of the queue, so both parts are `step_of_command`. -/
theorem stepRunsDecodedCommand : Obligations.StepRunsDecodedCommand := by
  unfold Obligations.StepRunsDecodedCommand
  refine ⟨fun s w rest i hin hd => ?_, fun s nbits w i hd => ?_⟩
  · rw [step_of_command hin hd, State.popHost_of_hostIn hin]
  · have hin : (s.withFetchWord nbits w).hostIn = .command (tableCmdWord nbits w) :: s.hostIn := rfl
    rw [step_of_command hin (decodeTableWord_eq_some_iff.mp hd), State.popHost_withFetchWord]

/-! ## READY slots (20_memory.md R60) -/

/-- No command writes a READY slot: ADD_GRADIENT writes the next free slot, which is EMPTY, and APPEND_CP passes
its checks only on a slot with room, which is FILLING. -/
theorem exec_keeps_ready_slot {i : Instr} {s t : State} {j : Nat} (hinv : s.Inv) (h : exec i s = .next t)
    (hready : (s.slot j).life = .ready) : t.slot j = s.slot j := by
  cases exec_effect h with
  | refused | answered | started | stepped => rfl
  | allocated =>
    have hne : s.used.toNat ≠ j := by
      rintro rfl
      simp [hinv.life_of_used_le le_rfl] at hready
    exact s.slot_setSlot_ne _ hne
  | stored sl r g b dur hslot hroom | completed sl r g b dur hslot hroom =>
    have hne : sl.toNat ≠ j := by
      rintro rfl
      exact hroom ((hinv.slot_loaded _ hslot).ready_iff.mp hready)
    exact s.slot_setSlot_ne _ hne

/-- Settles O29: of the outcomes of a step on a command word only the decoded command could write a slot. -/
theorem readySlotNeverChanges : Obligations.ReadySlotNeverChanges := by
  unfold Obligations.ReadySlotNeverChanges
  intro s t w rest j hinv hin h _ hready
  rcases step_cases h with ⟨-, rfl⟩ | ⟨_, _, i, -, -, he⟩ | ⟨_, _, e, -, -, rfl⟩ | ⟨e, _, he, hreset, -⟩
  · rfl
  · exact exec_keeps_ready_slot (s := s.popHost) hinv.popHost he hready
  · rfl
  · obtain ⟨rfl, -⟩ : .command w = e ∧ _ := by simpa [hin] using he
    simp at hreset

/-! ## ACTIVATE repeated (20_memory.md R55, 41_activation.md R108) -/

/-- A placed LED depends on the slot and its index only, and a trailing one is kept. -/
theorem placeLeds_placeLeds (p : Params) (sl : Slot) (ls : List Led) :
    placeLeds p sl (placeLeds p sl ls) = placeLeds p sl ls := by
  simp only [placeLeds, List.mapIdx_mapIdx]
  congr 1
  funext k l
  by_cases hk : k < placedLeds p sl <;> simp [hk]

theorem State.activate_activate (s : State) (sl : U8) : (s.activate sl).activate sl = s.activate sl :=
  congrArg (fun ls => (s.setLeds ls).setActive sl) (placeLeds_placeLeds s.params (s.slot sl.toNat) s.leds)

theorem State.activate_respond (s : State) (st : Status) (d : RspData) (sl : U8) :
    (s.respond st d).activate sl = (s.activate sl).respond st d := rfl

theorem placedLeds_le (p : Params) (sl : Slot) : placedLeds p sl ≤ p.numLeds := Nat.mul_div_le _ _

/-- An LED of a wave block is placed like the one a block further (41_activation.md R109). -/
theorem State.Inv.activate_led_add_ledsPerWave {s : State} (h : s.Inv) (sl : U8) {k : Nat}
    (hk : k + ledsPerWave s.params (s.slot sl.toNat) < placedLeds s.params (s.slot sl.toNat)) :
    (s.activate sl).led (k + ledsPerWave s.params (s.slot sl.toNat)) = (s.activate sl).led k := by
  have hlen : placedLeds s.params (s.slot sl.toNat) ≤ s.leds.length := h.led_count ▸ placedLeds_le _ _
  rw [State.activate_led, State.activate_led, if_pos ⟨hk, by omega⟩, if_pos ⟨by omega, by omega⟩,
    Nat.add_mod_right]

theorem exec_startGradient_of_ready {s : State} {sl : U8} (hslot : sl.toNat < s.used.toNat)
    (hready : (s.slot sl.toNat).life = .ready) :
    exec (.startGradient sl) s = .next ((s.activate sl).respond .ok 0) := by
  have hallocated : s.slotUnallocated sl = false := by simpa [State.slotUnallocated] using hslot
  simp [exec, execStartGradient, hallocated, hready]

/-- Settles O38: the first START_GRADIENT leaves the slot allocated and READY, so the second activates it again,
which changes nothing more. -/
theorem startGradientIdempotent : Obligations.StartGradientIdempotent := by
  unfold Obligations.StartGradientIdempotent
  intro s sl hinv hslot hready
  refine ⟨_, exec_startGradient_of_ready hslot hready, ?_, fun k hk => hinv.activate_led_add_ledsPerWave sl hk⟩
  rw [exec_startGradient_of_ready (s := (s.activate sl).respond .ok 0) hslot hready, State.activate_respond,
    State.activate_activate]
  rfl

end Sys2Proof.Machine

/-! # Proofs about the encoding of the commands (30_encoding.md) -/

namespace Sys2Proof

/-! ## The fields of an encoded command (30_encoding.md R64, R65) -/

theorem packFields_inj {op sl op' sl' : U8} {x x' : U16} {c3 c2 c1 c0 c3' c2' c1' c0' : U8} :
    packFields op sl x c3 c2 c1 c0 = packFields op' sl' x' c3' c2' c1' c0' ↔
      op = op' ∧ sl = sl' ∧ x = x' ∧ c3 = c3' ∧ c2 = c2' ∧ c1 = c1' ∧ c0 = c0' := by
  constructor
  · intro h
    have hop := congrArg opField h
    have hsl := congrArg slotField h
    have hx := congrArg x16Field h
    have hc3 := congrArg c3Field h
    have hc2 := congrArg c2Field h
    have hc1 := congrArg c1Field h
    have hc0 := congrArg c0Field h
    simp only [opField_packFields, slotField_packFields, x16Field_packFields, c3Field_packFields,
      c2Field_packFields, c1Field_packFields, c0Field_packFields] at hop hsl hx hc3 hc2 hc1 hc0
    exact ⟨hop, hsl, hx, hc3, hc2, hc1, hc0⟩
  · rintro ⟨rfl, rfl, rfl, rfl, rfl, rfl, rfl⟩
    rfl

/-- The selector of READ_LED is the low end of the red field (R74). -/
theorem chField_encode_readLed (k : U16) (ch : BitVec 2) : chField (encode (.readLed k ch)) = ch := by
  rw [encode, chField_packFields]
  exact BitVec.extractLsb'_append_eq_right

/-- A command's operands stand in the fields of its word (R71 to R75). -/
theorem operandsOf_encode (i : Instr) : operandsOf i.op (encode i) = i := by
  cases i with
  | readLed k ch => rw [Instr.op, operandsOf, chField_encode_readLed, encode, x16Field_packFields]
  | _ => simp only [Instr.op, operandsOf, encode, slotField_packFields, x16Field_packFields, c3Field_packFields,
      c2Field_packFields, c1Field_packFields, c0Field_packFields]

theorem op_operandsOf (op : Op) (w : CmdWord) : (operandsOf op w).op = op := by
  cases op <;> rfl

/-- Every command's word matches the command's row of R69. -/
theorem encode_matches_row (i : Instr) : encode i &&& maskWord i.op = matchWord i.op := by
  cases i with
  | nop => exact Laws.MatchesItsRow.nop
  | addGradient n w => exact Laws.MatchesItsRow.addGradient n w
  | appendCp sl r g b dur => exact Laws.MatchesItsRow.appendCp sl r g b dur
  | startGradient sl => exact Laws.MatchesItsRow.startGradient sl
  | step => exact Laws.MatchesItsRow.step
  | readLed k ch => exact Laws.MatchesItsRow.readLed k ch
  | readPhase k => exact Laws.MatchesItsRow.readPhase k
  | readStatus => exact Laws.MatchesItsRow.readStatus

/-! ## The words that match a row of R69 -/

/-- The must-be-zero bits of a format are 0, by the bit ranges of R65. -/
def MbzClear : Format → CmdWord → Prop
  | .Z, w => w.extractLsb' 0 56 = 0
  | .G, w => w.extractLsb' 48 8 = 0 ∧ w.extractLsb' 8 24 = 0
  | .P, w => w.extractLsb' 32 16 = 0
  | .S, w => w.extractLsb' 0 48 = 0
  | .L, w => w.extractLsb' 48 8 = 0 ∧ w.extractLsb' 26 6 = 0 ∧ w.extractLsb' 0 24 = 0
  | .Q, w => w.extractLsb' 48 8 = 0 ∧ w.extractLsb' 0 32 = 0

theorem extractLsb'_eq_zero_iff (w : CmdWord) (a n : Nat) :
    w.extractLsb' a n = 0 ↔ w.toNat / 2 ^ a % 2 ^ n = 0 := by
  rw [BitVec.toNat_eq, BitVec.extractLsb'_toNat, Nat.shiftRight_eq_div_pow]
  simp

/-- The must-be-zero bits of READ_LED's red field are those above `CH` (R74). -/
theorem c3Field_and_eq_zero_iff (w : CmdWord) : c3Field w &&& 0xFC = 0 ↔ w.extractLsb' 26 6 = 0 := by
  have hbits : ∀ c : U8, c &&& 0xFC = 0 ↔ c.toNat / 4 = 0 := by decide
  rw [hbits, extractLsb'_eq_zero_iff, c3Field, BitVec.extractLsb'_toNat, Nat.shiftRight_eq_div_pow]
  omega

/-- The must-be-zero bits of a format, field by field. -/
theorem mbzClear_iff (f : Format) (w : CmdWord) : MbzClear f w ↔ match f with
    | .Z => slotField w = 0 ∧ x16Field w = 0 ∧ c3Field w = 0 ∧ c2Field w = 0 ∧ c1Field w = 0 ∧ c0Field w = 0
    | .G => slotField w = 0 ∧ c3Field w = 0 ∧ c2Field w = 0 ∧ c1Field w = 0
    | .P => x16Field w = 0
    | .S => x16Field w = 0 ∧ c3Field w = 0 ∧ c2Field w = 0 ∧ c1Field w = 0 ∧ c0Field w = 0
    | .L => slotField w = 0 ∧ c3Field w &&& 0xFC = 0 ∧ c2Field w = 0 ∧ c1Field w = 0 ∧ c0Field w = 0
    | .Q => slotField w = 0 ∧ c3Field w = 0 ∧ c2Field w = 0 ∧ c1Field w = 0 ∧ c0Field w = 0 := by
  cases f
  case L =>
    simp only [MbzClear, c3Field_and_eq_zero_iff, slotField, c2Field, c1Field, c0Field, extractLsb'_eq_zero_iff]
    omega
  case P => rfl
  all_goals
    simp only [MbzClear, slotField, x16Field, c3Field, c2Field, c1Field, c0Field, extractLsb'_eq_zero_iff]
    omega

/-- A word matches a row of R69 when its opcode byte is the row's and the must-be-zero bits of the row's format
are 0. -/
theorem matches_row_iff (op : Op) (w : CmdWord) :
    w &&& maskWord op = matchWord op ↔ opField w = opByte op ∧ MbzClear (formatOf op) w := by
  have and_ones8 : ∀ b : U8, b &&& 0xFF = b := fun _ => BitVec.and_allOnes
  have and_ones16 : ∀ b : U16, b &&& 0xFFFF = b := fun _ => BitVec.and_allOnes
  have and_zero8 : ∀ b : U8, b &&& 0 = 0 := fun _ => BitVec.and_zero
  have and_zero16 : ∀ b : U16, b &&& 0 = 0 := fun _ => BitVec.and_zero
  rw [mbzClear_iff]
  conv_lhs => rw [← packFields_fields w, maskWord_eq, matchWord_eq]
  cases op <;>
    simp only [packFields_and, packFields_inj, and_ones8, and_ones16, and_zero8, and_zero16, formatOf, true_and,
      and_true]

/-- With its must-be-zero bits 0, READ_LED's red field holds `CH` and nothing else. -/
theorem append_chField {w : CmdWord} (h : c3Field w &&& 0xFC = 0) : 0#6 ++ chField w = c3Field w := by
  have hbyte : ∀ c : U8, c &&& 0xFC = 0 → 0#6 ++ c.extractLsb' 0 2 = c := by decide
  have hch : chField w = (c3Field w).extractLsb' 0 2 := by
    conv_lhs => rw [← packFields_fields w, chField_packFields]
  rw [hch]
  exact hbyte _ h

/-- A word that matches a row of R69 is the word of the command with the word's operands. -/
theorem encode_operandsOf {op : Op} {w : CmdWord} (h : w &&& maskWord op = matchWord op) :
    encode (operandsOf op w) = w := by
  obtain ⟨hop, hmbz⟩ := (matches_row_iff op w).mp h
  rw [mbzClear_iff] at hmbz
  conv_rhs => rw [← packFields_fields w, hop]
  cases op <;> simp only [formatOf] at hmbz
  case readLed =>
    obtain ⟨hsl, hc3, hc2, hc1, hc0⟩ := hmbz
    rw [operandsOf, encode, hsl, append_chField hc3, hc2, hc1, hc0]
  all_goals simp only [operandsOf, encode, hmbz]

/-! ## Decoding (30_encoding.md R76, R77) -/

theorem opOfByte_eq_some_iff {b : U8} {op : Op} : opOfByte b = some op ↔ b = opByte op := by
  refine ⟨fun h => ?_, fun h => h ▸ opOfByte_opByte op⟩
  revert b
  cases op <;> decide

theorem opOfByte_eq_none_iff (b : U8) : opOfByte b = none ↔ 8 ≤ b.toNat := by
  revert b
  decide

/-- `decode` as one equivalence: a word gives a command exactly when it matches the command's row of R69, holds its
operands and does not select channel 3. -/
theorem decodeWord_eq_ok_iff {w : CmdWord} {i : Instr} : decodeWord w = .ok i ↔
    w &&& maskWord i.op = matchWord i.op ∧ (i.op = .readLed → chField w ≠ 3#2) ∧ operandsOf i.op w = i := by
  constructor
  · intro h
    unfold decodeWord at h
    split at h
    · nomatch h
    · next op _ =>
      split_ifs at h with hmask hch
      obtain rfl : operandsOf op w = i := by simpa using h
      rw [op_operandsOf]
      exact ⟨not_not.mp hmask, fun hop hch3 => hch ⟨hop, hch3⟩, rfl⟩
  · rintro ⟨hmatch, hch, hi⟩
    have hop : opOfByte (opField w) = some i.op :=
      opOfByte_eq_some_iff.mpr ((matches_row_iff i.op w).mp hmatch).1
    simp only [decodeWord, hop]
    rw [if_neg (not_not.mpr hmatch), if_neg fun ⟨hled, h3⟩ => hch hled h3, hi]

/-- READ_LED is well formed when its selector is not 3; every other command always is. -/
theorem wellFormed_iff (i : Instr) : i.wellFormed = true ↔ (i.op = .readLed → chField (encode i) ≠ 3#2) := by
  cases i with
  | readLed k ch => simp [Instr.wellFormed, Instr.op, channelSelects, chField_encode_readLed]
  | _ => exact iff_of_true rfl nofun

theorem decodeWord_encode {i : Instr} (h : i.wellFormed = true) : decodeWord (encode i) = .ok i :=
  decodeWord_eq_ok_iff.mpr ⟨encode_matches_row i, (wellFormed_iff i).mp h, operandsOf_encode i⟩

/-- Settles O2: a command's word matches the command's row and holds its operands, and its bytes carry the word. -/
theorem decodeEncodeRoundTrip : Obligations.DecodeEncodeRoundTrip := by
  unfold Obligations.DecodeEncodeRoundTrip
  refine fun i hi => ⟨decodeWord_encode hi, fun rest => ?_⟩
  rw [encodeBytes, decodeBytes_cmdBytes, decodeWord_encode hi]
  rfl

/-- Settles O3: the word matches the row of its command, so it has no bit that the command does not fix. -/
theorem encodeDecodeRoundTrip : Obligations.EncodeDecodeRoundTrip := by
  unfold Obligations.EncodeDecodeRoundTrip
  intro w i h
  obtain ⟨hmatch, -, hi⟩ := decodeWord_eq_ok_iff.mp h
  refine ⟨?_, Machine.wellFormed_of_decodeWord h⟩
  rw [← hi]
  exact encode_operandsOf hmatch

/-- A word selects a command by the columns of R69 (READ_LED also by R74). -/
theorem decodeWord_selects_iff (w : CmdWord) (op : Op) : (∃ i, decodeWord w = .ok i ∧ i.op = op) ↔
    w &&& maskWord op = matchWord op ∧ (op = .readLed → chField w ≠ 3#2) := by
  constructor
  · rintro ⟨i, h, rfl⟩
    obtain ⟨hmatch, hch, -⟩ := decodeWord_eq_ok_iff.mp h
    exact ⟨hmatch, hch⟩
  · intro h
    refine ⟨operandsOf op w, ?_, op_operandsOf op w⟩
    rw [decodeWord_eq_ok_iff, op_operandsOf]
    exact ⟨h.1, h.2, rfl⟩

/-- Settles O4: the statement's table is that of `matchWord` and `maskWord`. -/
theorem decodeSelectsByMatchAndMask : Obligations.DecodeSelectsByMatchAndMask := by
  unfold Obligations.DecodeSelectsByMatchAndMask
  intro row w op
  have hrow : row op = (matchWord op, maskWord op) := by cases op <;> rfl
  rw [hrow]
  exact decodeWord_selects_iff w op

/-- A word is illegal by its opcode, by a must-be-zero bit of its opcode's format, or by `CH` (R77). -/
theorem decodeWord_eq_error_iff (w : CmdWord) : (∃ e, decodeWord w = .error e) ↔
    8 ≤ (opField w).toNat ∨
      ∃ op, opField w = opByte op ∧ (¬ MbzClear (formatOf op) w ∨ (op = .readLed ∧ chField w = 3#2)) := by
  rw [← opOfByte_eq_none_iff, decodeWord]
  cases hop : opOfByte (opField w) with
  | none => simp
  | some op =>
    have hbyte := opOfByte_eq_some_iff.mp hop
    constructor
    · rintro ⟨e, h⟩
      simp only at h
      split_ifs at h with hmatch hch
      · exact .inr ⟨op, hbyte, .inl fun hmbz => hmatch ((matches_row_iff op w).mpr ⟨hbyte, hmbz⟩)⟩
      · exact .inr ⟨op, hbyte, .inr hch⟩
    · rintro (h | ⟨op', hbyte', h⟩)
      · nomatch h
      · obtain rfl : op = op' := Option.some.inj (hop.symm.trans (opOfByte_eq_some_iff.mpr hbyte'))
        simp only
        split_ifs with hmatch hch
        · exact ⟨_, rfl⟩
        · exact ⟨_, rfl⟩
        · obtain ⟨-, hmbz⟩ := (matches_row_iff op w).mp (not_not.mp hmatch)
          exact absurd h (not_or.mpr ⟨not_not.mpr hmbz, hch⟩)

/-- Settles O5, by the opcode: `MbzClear` states the bit ranges of each format. -/
theorem illegalWordsByField : Obligations.IllegalWordsByField := by
  unfold Obligations.IllegalWordsByField
  intro w OP
  rw [decodeWord_eq_error_iff]
  constructor
  · rintro (hreserved | ⟨op, hop, h⟩)
    · exact .inl hreserved
    · have hOP : OP = (opByte op).toNat := congrArg BitVec.toNat hop
      cases op <;> simpa [-not_and, hOP, opByte, formatOf, MbzClear, chField, not_and_or, or_assoc] using h
  · have illegal_of_mbz (op : Op) (hOP : OP = (opByte op).toNat) (hmbz : ¬ MbzClear (formatOf op) w) :
        8 ≤ (opField w).toNat ∨ ∃ op, opField w = opByte op ∧
          (¬ MbzClear (formatOf op) w ∨ (op = .readLed ∧ chField w = 3#2)) :=
      .inr ⟨op, BitVec.eq_of_toNat_eq hOP, .inl hmbz⟩
    rintro (h | ⟨hOP | hOP | hOP, h⟩ | ⟨hOP, h⟩ | ⟨hOP, h⟩ | ⟨hOP, h⟩ | ⟨hOP, h⟩ | ⟨hOP, h⟩ | ⟨hOP, h⟩)
    · exact .inl h
    · exact illegal_of_mbz .nop hOP h
    · exact illegal_of_mbz .step hOP h
    · exact illegal_of_mbz .readStatus hOP h
    · exact illegal_of_mbz .addGradient hOP (not_and_or.mpr h)
    · exact illegal_of_mbz .appendCp hOP h
    · exact illegal_of_mbz .startGradient hOP h
    · exact illegal_of_mbz .readLed hOP fun ⟨hsl, hred, hlow⟩ => by simp [hsl, hred, hlow] at h
    · exact illegal_of_mbz .readPhase hOP (not_and_or.mpr h)
    · exact .inr ⟨.readLed, BitVec.eq_of_toNat_eq hOP, .inr ⟨rfl, h⟩⟩

/-- Settles O1, by evaluation of the decoder on each word. -/
theorem decodeSpecWords : Obligations.DecodeSpecWords := by
  unfold Obligations.DecodeSpecWords
  exact ⟨rfl, rfl, rfl, rfl, rfl, rfl, rfl, rfl, rfl, rfl, rfl⟩

end Sys2Proof

namespace Sys2Proof.Machine

/-! ## The response of a command word (30_encoding.md R63, R66, R78) -/

theorem step_of_illegal {s : State} {w : CmdWord} {rest : List HostEvent} {e : Reject}
    (hin : s.hostIn = .command w :: rest) (hd : decodeWord w = .error e) :
    step s = .next (s.popHost.raiseError .illegalCommand) := by
  simp [step, hin, runEvent, runWord, hd, answerIllegal]

/-- Settles O8: the error is raised on the state with the word taken from the queue. -/
theorem illegalWordAnswered : Obligations.IllegalWordAnswered := by
  unfold Obligations.IllegalWordAnswered
  intro s w rest e hin hd
  rw [step_of_illegal hin hd, State.popHost_of_hostIn hin]
  rfl

/-- No command ends in a fault or a refusal. -/
theorem exec_isNext (i : Instr) (s : State) : ∃ t, exec i s = .next t := by
  cases i with
  | nop | readStatus => exact ⟨_, rfl⟩
  | readLed k ch =>
    simp only [exec, execReadLed]
    cases channelOf ch (s.led k.toNat) with
    | none => exact ⟨_, rfl⟩
    | some v =>
      dsimp only
      split_ifs <;> exact ⟨_, rfl⟩
  | addGradient | appendCp | startGradient | step | readPhase =>
    simp only [exec, execAddGradient, execAppendCp, execStartGradient, execStep, execReadPhase]
    split_ifs <;> exact ⟨_, rfl⟩

@[simp] theorem rspData_rspWord (st : Status) (d : RspData) : rspData (rspWord st d) = d :=
  BitVec.extractLsb'_append_eq_right

theorem statusCode_le (st : Status) : (statusCode st).toNat ≤ 7 := by
  cases st <;> decide

/-- A command answers with one response, whose data is 0 on an error. -/
theorem exec_hostOut {i : Instr} {s t : State} (h : exec i s = .next t) :
    ∃ st d, t.hostOut = s.hostOut ++ [rspWord st d] ∧ (st ≠ .ok → d = 0) := by
  cases exec_effect h with
  | refused _ st => exact ⟨st, 0, rfl, fun _ => rfl⟩
  | answered _ d => exact ⟨.ok, d, rfl, fun h => absurd rfl h⟩
  | allocated => exact ⟨.ok, data8 s.used, rfl, fun h => absurd rfl h⟩
  | stored | completed | started | stepped => exact ⟨.ok, 0, rfl, fun _ => rfl⟩

/-- An accepted word, legal or not, is taken from the queue and has one response. -/
theorem step_of_word {s : State} {w : CmdWord} {rest : List HostEvent} (hin : s.hostIn = .command w :: rest) :
    ∃ t st d, step s = .next t ∧ t.hostIn = rest ∧ t.hostOut = s.hostOut ++ [rspWord st d] ∧
      (st ≠ .ok → d = 0) := by
  have htail : s.popHost.hostIn = rest := by rw [State.popHost_of_hostIn hin]
  cases hd : decodeWord w with
  | error e => exact ⟨_, .illegalCommand, 0, step_of_illegal hin hd, htail, rfl, fun _ => rfl⟩
  | ok i =>
    obtain ⟨t, ht⟩ := exec_isNext i s.popHost
    obtain ⟨st, d, hout, hdata⟩ := exec_hostOut ht
    exact ⟨t, st, d, (step_of_command hin hd).trans ht, (exec_hostIn ht).trans htail, hout, hdata⟩

/-- Settles O12, from the response of `step_of_word`: only the code of OK is 0. -/
theorem oneResponsePerCommand : Obligations.OneResponsePerCommand := by
  unfold Obligations.OneResponsePerCommand
  intro s w rest hin
  obtain ⟨t, st, d, hstep, hrest, hout, hdata⟩ := step_of_word hin
  refine ⟨t, _, hstep, hrest, hout, ?_, fun hcode => ?_⟩
  · rw [rspStatus_rspWord]
    exact statusCode_le st
  · rw [rspStatus_rspWord] at hcode
    rw [rspData_rspWord, hdata]
    rintro rfl
    exact hcode rfl

end Sys2Proof.Machine

namespace Sys2Proof.Machine

/-! ## The GRADIENT pseudo-command (30_encoding.md R81) -/

theorem exec_addGradient_of_valid {s : State} {n : U8} {w : U16} (hconfig : configInvalid s.params n w = false)
    (hfree : s.used.toNat ≠ s.params.maxGradients) :
    exec (.addGradient n w) s =
      .next (((s.setSlot s.used.toNat ((s.slot s.used.toNat).allocated n w)).setUsed (s.used + 1)).respond
        .ok (data8 s.used)) := by
  simp [exec, execAddGradient, hconfig, hfree]

theorem exec_appendCp_of_room {s : State} {sl r g b dur : U8} (hslot : sl.toNat < s.used.toNat)
    (hroom : (s.slot sl.toNat).count ≠ (s.slot sl.toNat).n) (hdur : dur ≠ 0) :
    exec (.appendCp sl r g b dur) s = .next ((s.appendPoint sl ⟨r, g, b, dur⟩).respond .ok 0) := by
  have hallocated : ¬ s.slotUnallocated sl = true := by simpa using hslot
  rw [exec, execAppendCp, if_neg hallocated, if_neg hroom, if_neg hdur]

@[simp] theorem appendPoint_hostOut (s : State) (sl : U8) (p : ControlPoint) :
    (s.appendPoint sl p).hostOut = s.hostOut := by
  rcases appendPoint_cases s sl p with ⟨-, heq⟩ | ⟨-, heq⟩ <;> rw [heq] <;> rfl

/-- What an append writes of its slot but the lifecycle and the deltas: the point at the cursor. -/
theorem State.Inv.appendPoint_slot {s : State} (h : s.Inv) {sl : U8} (hslot : sl.toNat < s.used.toNat)
    (p : ControlPoint) :
    ((s.appendPoint sl p).slot sl.toNat).count = (s.slot sl.toNat).count + 1 ∧
      ∀ i, ((s.appendPoint sl p).slot sl.toNat).point i = ((s.slot sl.toNat).appended p).point i := by
  rcases appendPoint_cases s sl p with ⟨-, heq⟩ | ⟨-, heq⟩
  · rw [heq, State.activate_slot, h.slot_setSlot hslot]
    exact ⟨rfl, fun _ => rfl⟩
  · rw [heq, h.slot_setSlot hslot]
    exact ⟨rfl, fun _ => rfl⟩

/-- The Nth append makes its slot active. -/
theorem appendPoint_active {s : State} {sl : U8} (p : ControlPoint)
    (hlast : (s.slot sl.toNat).count.toNat + 1 = (s.slot sl.toNat).n.toNat) :
    (s.appendPoint sl p).active = sl := by
  rcases appendPoint_cases s sl p with ⟨-, heq⟩ | ⟨hmore, -⟩
  · rw [heq, State.activate_active]
  · exact absurd hlast hmore

/-- `t` is `s` with the points `done` appended to slot `sl`, one response for each. -/
structure AppendedTo (s : State) (sl : U8) (done : List ControlPoint) (t : State) : Prop where
  inv : t.Inv
  used : t.used = s.used
  n : (t.slot sl.toNat).n = (s.slot sl.toNat).n
  w : (t.slot sl.toNat).w = (s.slot sl.toNat).w
  count : (t.slot sl.toNat).count.toNat = done.length
  point : ∀ i (h : i < done.length), (t.slot sl.toNat).point i = done[i]
  other : ∀ j, j ≠ sl.toNat → t.slot j = s.slot j
  hostOut : t.hostOut = s.hostOut ++ List.replicate done.length (rspWord .ok 0)
  active : done.length = (s.slot sl.toNat).n.toNat → t.active = sl

theorem State.Inv.appendedTo_nil {s : State} {sl : U8} (h : s.Inv) (hcount : (s.slot sl.toNat).count = 0)
    (hn : (s.slot sl.toNat).n.toNat ≠ 0) : AppendedTo s sl [] s where
  inv := h
  used := rfl
  n := rfl
  w := rfl
  count := congrArg BitVec.toNat hcount
  point := nofun
  other := fun _ _ => rfl
  hostOut := (List.append_nil _).symm
  active := fun hfull => absurd hfull.symm hn

/-- A slot with all its points is READY. -/
theorem AppendedTo.ready {s t : State} {sl : U8} {done : List ControlPoint} (h : AppendedTo s sl done t)
    (hslot : sl.toNat < s.used.toNat) (hfull : done.length = (s.slot sl.toNat).n.toNat) :
    (t.slot sl.toNat).life = .ready := by
  refine (h.inv.slot_loaded _ (h.used ▸ hslot)).ready_iff.mpr (BitVec.eq_of_toNat_eq ?_)
  rw [h.count, h.n, hfull]

/-- Another append to a slot with room. -/
theorem AppendedTo.append {s t : State} {sl : U8} {done : List ControlPoint} (h : AppendedTo s sl done t)
    (hslot : sl.toNat < s.used.toNat) {p : ControlPoint} (hdur : p.dur ≠ 0)
    (hroom : done.length < (s.slot sl.toNat).n.toNat) :
    ∃ u, exec (appendOf sl p) t = .next u ∧ AppendedTo s sl (done ++ [p]) u := by
  have hslot : sl.toNat < t.used.toNat := h.used ▸ hslot
  have hloaded := h.inv.slot_loaded _ hslot
  obtain ⟨hpt, -⟩ := h.inv.slot_arrays _ (hslot.trans_le h.inv.used_le)
  have hne : (t.slot sl.toNat).count ≠ (t.slot sl.toNat).n := fun he => by
    have := congrArg BitVec.toNat he
    rw [h.count, h.n] at this
    omega
  have hexec : exec (appendOf sl p) t = .next ((t.appendPoint sl p).respond .ok 0) :=
    exec_appendCp_of_room hslot hne hdur
  obtain ⟨hother, hn, hw⟩ := execAppendCp_slots hexec
  obtain ⟨hcount, hpoint⟩ := h.inv.appendPoint_slot hslot p
  refine ⟨_, hexec,
    { inv := exec_keeps_inv h.inv hexec
      used := (exec_used hexec nofun).trans h.used
      n := hn.trans h.n
      w := hw.trans h.w
      count := ?_
      point := fun i hi => ?_
      other := fun j hj => (hother j hj).trans (h.other j hj)
      hostOut := ?_
      active := fun hfull => ?_ }⟩
  · rw [State.respond_slot, hcount, hloaded.count_succ hne, h.count, List.length_append, List.length_singleton]
  · rw [State.respond_slot, hpoint]
    have hn_le := h.n ▸ hloaded.n_le
    by_cases hnew : i < done.length
    · rw [Slot.appended_point_ne _ _ (by rw [h.count]; omega), h.point i hnew, List.getElem_append_left hnew]
    · obtain rfl : i = (t.slot sl.toNat).count.toNat := by
        rw [h.count]
        simp at hi
        omega
      rw [Slot.appended_point_self _ _ (by rw [hpt, h.count]; omega)]
      simp [h.count]
  · rw [State.respond_hostOut, appendPoint_hostOut, h.hostOut, List.length_append, List.length_singleton,
      List.replicate_succ', List.append_assoc]
  · refine appendPoint_active p ?_
    rw [h.count, h.n, ← hfull, List.length_append, List.length_singleton]

theorem runInstrs_cons_of_next {i : Instr} {s t : State} (h : exec i s = .next t) (is : List Instr) :
    runInstrs (i :: is) s = runInstrs is t := by
  simp only [runInstrs, h]

/-- The appends of a list of points that fits, by induction on the list. -/
theorem AppendedTo.appends {s : State} {sl : U8} (hslot : sl.toNat < s.used.toNat) {pts : List ControlPoint} :
    ∀ {done : List ControlPoint} {t : State}, AppendedTo s sl done t → (∀ q ∈ pts, q.dur ≠ 0) →
      done.length + pts.length ≤ (s.slot sl.toNat).n.toNat →
      ∃ u, runInstrs (pts.map (appendOf sl)) t = .next u ∧ AppendedTo s sl (done ++ pts) u := by
  induction pts with
  | nil =>
    intro done t h _ _
    exact ⟨t, rfl, by rwa [List.append_nil]⟩
  | cons p ps ih =>
    intro done t h hdur hfit
    obtain ⟨hp, hps⟩ := List.forall_mem_cons.mp hdur
    rw [List.length_cons] at hfit
    obtain ⟨u, hexec, hu⟩ := h.append hslot hp (by omega)
    obtain ⟨v, hrun, hv⟩ := ih hu hps (by rw [List.length_append, List.length_singleton]; omega)
    refine ⟨v, ?_, ?_⟩
    · rw [List.map_cons, runInstrs_cons_of_next hexec, hrun]
    · rwa [List.append_assoc, List.singleton_append] at hv

theorem rspWord_ok_data8 (v : U8) : rspWord .ok (data8 v) = (0x00#8 ++ 0#16 ++ v : RspWord) := by
  revert v
  decide

/-- Settles O55: ADD_GRADIENT allocates slot `USED` with no points, and the appends then load it. -/
theorem gradientPseudoLoadsSlot : Obligations.GradientPseudoLoadsSlot := by
  unfold Obligations.GradientPseudoLoadsSlot
  intro s n w pts hinv hfree hlen hn hn_le hw hw_le hdur
  have hconfig : configInvalid s.params n w = false := by
    rw [Bool.eq_false_iff, ne_eq, configInvalid_iff]
    omega
  have hadd := exec_addGradient_of_valid hconfig hfree.ne
  set a := ((s.setSlot s.used.toNat ((s.slot s.used.toNat).allocated n w)).setUsed (s.used + 1)).respond
    .ok (data8 s.used) with ha
  have hslot_a : a.slot s.used.toNat = (s.slot s.used.toNat).allocated n w :=
    hinv.slot_setSlot_used hfree.ne _
  have hused : a.used.toNat = s.used.toNat + 1 := by
    obtain ⟨-, -, -, hmax⟩ := hinv.legal
    exact toNat_add_one_of_lt (by omega)
  have hslot : s.used.toNat < a.used.toNat := by omega
  have hfull : pts.length = (a.slot s.used.toNat).n.toNat := by rw [hlen, hslot_a, Slot.allocated_n]
  have hnone : AppendedTo a s.used [] a :=
    (exec_keeps_inv hinv hadd).appendedTo_nil (by rw [hslot_a, Slot.allocated_count]) (by omega)
  obtain ⟨t, hrun, ht⟩ := hnone.appends hslot hdur (by simp [hfull])
  rw [List.nil_append] at ht
  refine ⟨t, ?_, ht.active hfull, ?_, ht.ready hslot hfull, ?_, ?_, ht.point, fun j hj => ?_, ?_⟩
  · rw [expand, runInstrs_cons_of_next hadd, hrun]
  · rw [ht.used, hused]
  · rw [ht.n, hslot_a, Slot.allocated_n]
  · rw [ht.w, hslot_a, Slot.allocated_w]
  · exact (ht.other j hj).trans (s.slot_setSlot_ne _ hj.symm)
  · rw [ht.hostOut, hlen, ha, State.respond_hostOut, rspWord_ok_data8, List.append_assoc]
    rfl

end Sys2Proof.Machine

namespace Sys2Proof.Machine

/-! ## The assembler (30_encoding.md R80, R81) -/

/-- Every result of a parse, if it has one, is as `P` says. -/
def Yields {ε α : Type} (P : α → Prop) (x : Except ε α) : Prop := ∀ a, x = .ok a → P a

section
variable {ε α β : Type} {P : α → Prop} {Q : β → Prop}

theorem Yields.ok {a : α} (h : P a) : Yields P (.ok a : Except ε α) := by
  rintro _ ⟨⟩
  exact h

theorem Yields.pure {a : α} (h : P a) : Yields P (pure a : Except ε α) := .ok h

theorem Yields.error {e : ε} : Yields P (.error e) := nofun

theorem Yields.bind {x : Except ε α} {f : α → Except ε β} (hx : Yields P x) (hf : ∀ a, P a → Yields Q (f a)) :
    Yields Q (x >>= f) := by
  cases x with
  | error e => exact .error
  | ok a => exact hf a (hx a rfl)

/-- A parse that nothing is asked of. -/
theorem Yields.andThen {x : Except ε α} {f : α → Except ε β} (hf : ∀ a, Yields Q (f a)) : Yields Q (x >>= f) :=
  Yields.bind (P := fun _ => True) (fun _ _ => trivial) fun a _ => hf a

theorem Yields.ite {c : Prop} [Decidable c] {x y : Except ε α} (hx : Yields P x) (hy : Yields P y) :
    Yields P (if c then x else y) := by
  split
  · exact hx
  · exact hy

end

/-- The command that a source line names itself, if it does, is well formed. -/
def Source.WellFormed (src : Source) : Prop := ∀ i, src = .core i → i.wellFormed = true

theorem Source.wellFormed_core {i : Instr} (h : i.wellFormed = true) : (Source.core i).WellFormed := by
  rintro _ ⟨⟩
  exact h

theorem expand_wellFormed {src : Source} (h : src.WellFormed) : ∀ i ∈ expand src, i.wellFormed = true := by
  cases src with
  | core i => simpa [expand] using h i rfl
  | getRed | getGreen | getBlue => simp [expand, Instr.wellFormed, channelSelects]
  | stepN n =>
    intro i hi
    rw [List.eq_of_mem_replicate hi]
    rfl
  | gradient sl n w pts =>
    intro i hi
    rcases List.mem_cons.mp hi with rfl | hi
    · rfl
    · obtain ⟨p, -, rfl⟩ := List.mem_map.mp hi
      rfl

/-- R80 accepts no channel but red, green and blue. -/
theorem parseChannel_yields (cs : List Char) : Yields (channelSelects · = true) (parseChannel cs) := by
  unfold parseChannel
  split
  case h_7 => exact .error
  all_goals exact .ok rfl

theorem parseGradient_yields (ts : List Token) : Yields Source.WellFormed (parseGradient ts) := by
  unfold parseGradient
  split
  · exact .andThen fun sl => .andThen fun n => .andThen fun w => .andThen fun pts => .ite (.ok nofun) .error
  · exact .error

/-- Of the commands only READ_LED has an operand that could make it ill formed. -/
theorem parsePlain_yields (m : List Char) (ops : List (List Char)) :
    Yields Source.WellFormed (parsePlain m ops) := by
  unfold parsePlain
  refine .ite ?nop <| .ite ?addGradient <| .ite ?appendCp <| .ite ?startGradient <| .ite ?step <|
    .ite ?readLed <| .ite ?readPhase <| .ite ?readStatus <| .ite ?getRed <| .ite ?getGreen <| .ite ?getBlue <|
    .ite ?stepN .error
  case readLed =>
    split
    · exact .andThen fun k => .bind (parseChannel_yields _) fun ch hch => .pure (Source.wellFormed_core hch)
    · exact .error
  case nop | step | readStatus =>
    split
    · exact .ok (Source.wellFormed_core rfl)
    · exact .error
  case addGradient =>
    split
    · exact .andThen fun n => .andThen fun w => .pure (Source.wellFormed_core rfl)
    · exact .error
  case appendCp =>
    split
    · exact .andThen fun sl => .andThen fun r => .andThen fun g => .andThen fun b => .andThen fun d =>
        .pure (Source.wellFormed_core rfl)
    · exact .error
  case startGradient | readPhase =>
    split
    · exact .andThen fun _ => .pure (Source.wellFormed_core rfl)
    · exact .error
  case getRed | getGreen | getBlue | stepN =>
    split
    · exact .andThen fun _ => .pure nofun
    · exact .error

theorem parseLine_yields (cs : List Char) :
    Yields (fun line => ∀ src, line = some src → src.WellFormed) (parseLine cs) := by
  have yields_some {x : Except AsmError Source} (h : Yields Source.WellFormed x) :
      Yields (fun line => ∀ src, line = some src → src.WellFormed) (do return some (← x)) :=
    .bind h fun src hsrc => .pure fun src' hsome => Option.some.inj hsome ▸ hsrc
  unfold parseLine
  refine .andThen fun ts => ?_
  split
  · exact .pure nofun
  · exact .ite (yields_some (parseGradient_yields _)) (.andThen fun ops => yields_some (parsePlain_yields _ ops))
  · exact .error

theorem assemble_yields (ls : List (List Char)) :
    Yields (fun is => ∀ i ∈ is, i.wellFormed = true) (assemble ls) := by
  induction ls with
  | nil => exact .ok nofun
  | cons l ls ih =>
    refine .bind (parseLine_yields l) fun line hline => .bind ih fun is his => .pure fun i hi => ?_
    rcases List.mem_append.mp hi with hi | hi
    · cases line with
      | none => nomatch hi
      | some src => exact expand_wellFormed (hline src rfl) i hi
    · exact his i hi

/-- Settles O57: the expansions add no READ_LED but of the three channels, and the parser reads no other. -/
theorem assembledCommandsWellFormed : Obligations.AssembledCommandsWellFormed := by
  unfold Obligations.AssembledCommandsWellFormed
  exact ⟨fun _ => expand_wellFormed, fun ls => assemble_yields ls⟩

end Sys2Proof.Machine

/-! # Proofs about gradient loading (40_gradient_load.md) -/

namespace Sys2Proof

/-! ## The word of a command (30_encoding.md R76) -/

theorem decodeWord_eq_ok_iff_eq_encode {w : CmdWord} {i : Instr} (hwf : i.wellFormed = true) :
    decodeWord w = .ok i ↔ w = encode i := by
  constructor
  · intro h
    obtain ⟨hword, -⟩ := encodeDecodeRoundTrip w i h
    exact hword.symm
  · rintro rfl
    exact decodeWord_encode hwf

/-- The three unused bytes of format G are one field of zeros (30_encoding.md R65). -/
theorem encode_addGradient (n : U8) (wd : U16) :
    encode (.addGradient n wd) = (0x01#8 ++ 0x00#8 ++ wd ++ 0#24 ++ n : CmdWord) := by
  apply BitVec.eq_of_toNat_eq
  simp only [encode, packFields, BitVec.toNat_append, BitVec.ofNat_eq_ofNat, BitVec.toNat_ofNat, Nat.zero_mod,
    Nat.or_zero, ← Nat.shiftLeft_add]
  rfl

end Sys2Proof

namespace Sys2Proof.Machine

/-! ## The refusals of the loading commands (40_gradient_load.md R86, R88 to R90) -/

/-- A refusal whose code has no FAULT bit adds its response and changes nothing (60_exceptions.md R158). -/
theorem State.raiseError_eq_respond (s : State) {st : Status} (hbit : faultBitOf st = 0) :
    s.raiseError st = s.respond st 0 := by
  have hfault : faultAfter st s.fault = s.fault := by
    rw [faultAfter, hbit]
    exact BitVec.or_zero
  rw [State.raiseError, hfault]
  rfl

theorem configInvalid_eq_false_iff (p : Params) (n : U8) (w : U16) : configInvalid p n w = false ↔
    1 ≤ n.toNat ∧ n.toNat ≤ p.maxPoints ∧ 1 ≤ w.toNat ∧ w.toNat ≤ p.numLeds := by
  rw [Bool.eq_false_iff, ne_eq, configInvalid_iff]
  omega

theorem exec_addGradient_of_invalid {s : State} {n : U8} {w : U16} (hconfig : configInvalid s.params n w = true) :
    exec (.addGradient n w) s = .next (s.respond .invalidConfig 0) := by
  rw [exec, execAddGradient, if_pos hconfig, s.raiseError_eq_respond rfl]

theorem exec_addGradient_of_full {s : State} {n : U8} {w : U16} (hconfig : configInvalid s.params n w = false)
    (hfull : s.used.toNat = s.params.maxGradients) :
    exec (.addGradient n w) s = .next (s.respond .capacityExceeded 0) := by
  rw [exec, execAddGradient, if_neg (ne_true_of_eq_false hconfig), if_pos hfull, s.raiseError_eq_respond rfl]

section
variable {s : State} {sl r g b dur : U8}

theorem exec_appendCp_of_unallocated (hslot : s.used.toNat ≤ sl.toNat) :
    exec (.appendCp sl r g b dur) s = .next (s.respond .indexOutOfRange 0) := by
  rw [exec, execAppendCp, if_pos ((slotUnallocated_iff s sl).mpr hslot), s.raiseError_eq_respond rfl]

theorem exec_appendCp_of_full (hslot : sl.toNat < s.used.toNat)
    (hfull : (s.slot sl.toNat).count = (s.slot sl.toNat).n) :
    exec (.appendCp sl r g b dur) s = .next (s.respond .capacityExceeded 0) := by
  rw [exec, execAppendCp, if_neg (mt (slotUnallocated_iff s sl).mp hslot.not_ge), if_pos hfull,
    s.raiseError_eq_respond rfl]

theorem exec_appendCp_of_dur_zero (hslot : sl.toNat < s.used.toNat)
    (hroom : (s.slot sl.toNat).count ≠ (s.slot sl.toNat).n) :
    exec (.appendCp sl r g b 0) s = .next (s.respond .invalidDuration 0) := by
  rw [exec, execAppendCp, if_neg (mt (slotUnallocated_iff s sl).mp hslot.not_ge), if_neg hroom, if_pos rfl,
    s.raiseError_eq_respond rfl]

end

/-- Settles O19, one refusal for each check that APPEND_CP makes. -/
theorem appendErrors : Obligations.AppendErrors := by
  unfold Obligations.AppendErrors
  refine fun s sl r g b dur => ⟨fun hslot => ?_, fun hslot hfull => ?_, ?_⟩
  · rw [exec_appendCp_of_unallocated hslot]
    rfl
  · rw [exec_appendCp_of_full hslot hfull]
    rfl
  · rintro hslot hroom rfl
    rw [exec_appendCp_of_dur_zero hslot hroom]
    rfl

/-! ## ADD_GRADIENT (40_gradient_load.md R86) -/

/-- Settles O18: the refusals in the order of the checks, then the allocation of the next free slot. -/
theorem addGradientResult : Obligations.AddGradientResult := by
  unfold Obligations.AddGradientResult
  refine ⟨fun w n wd => ?_, fun s n w hinvalid => ?_, fun s n w hn hn_le hw hw_le hfull => ?_,
    fun s n w hinv hn hn_le hw hw_le hfree => ?_⟩
  · rw [decodeWord_eq_ok_iff_eq_encode rfl, encode_addGradient]
  · rw [exec_addGradient_of_invalid ((configInvalid_iff _ _ _).mpr hinvalid)]
    rfl
  · rw [exec_addGradient_of_full ((configInvalid_eq_false_iff _ _ _).mpr ⟨hn, hn_le, hw, hw_le⟩) hfull]
    rfl
  · have hconfig := (configInvalid_eq_false_iff s.params n w).mpr ⟨hn, hn_le, hw, hw_le⟩
    have hused : (s.used + 1).toNat = s.used.toNat + 1 := by
      obtain ⟨-, -, -, hmax⟩ := hinv.legal
      have hle := hinv.used_le
      exact toNat_add_one_of_lt (by omega)
    refine ⟨_, exec_addGradient_of_valid hconfig hfree, ?_, List.length_set, hused,
      hinv.slot_setSlot_used hfree _, fun j hj => s.slot_setSlot_ne _ hj.symm⟩
    rw [← rspWord_ok_data8]
    rfl

/-! ## The slot after an append (40_gradient_load.md R88, R91) -/

/-- The delta table of a completed slot, in terms of its own points. -/
theorem Slot.completed_segDelta (a : Arith) (sl : Slot) (i : Nat) : (sl.completed a).segDelta i =
    if i < sl.n.toNat ∧ i < sl.delta.length then segmentDelta a (sl.completed a) i else sl.segDelta i := by
  rw [segmentDelta_congr a (x := sl.completed a) (y := { sl with life := .ready }) i rfl rfl]
  exact computeDeltas_segDelta a { sl with life := .ready } i

/-- A cursor below `N` passes the check for room. -/
theorem Slot.count_ne_of_toNat_lt {sl : Slot} (h : sl.count.toNat < sl.n.toNat) : sl.count ≠ sl.n :=
  fun he => h.ne (congrArg BitVec.toNat he)

/-! ## APPEND_CP (40_gradient_load.md R88, R91, R92) -/

section
variable {s : State} {sl r g b dur : U8}

/-- An append before the Nth stores its point only. -/
theorem exec_appendCp_of_not_last (hslot : sl.toNat < s.used.toNat)
    (hmore : (s.slot sl.toNat).count.toNat + 1 < (s.slot sl.toNat).n.toNat) (hdur : dur ≠ 0) :
    exec (.appendCp sl r g b dur) s =
      .next ((s.setSlot sl.toNat ((s.slot sl.toNat).appended ⟨r, g, b, dur⟩)).respond .ok 0) := by
  rw [exec_appendCp_of_room hslot (Slot.count_ne_of_toNat_lt (by omega)) hdur]
  rcases appendPoint_cases s sl ⟨r, g, b, dur⟩ with ⟨hlast, -⟩ | ⟨-, heq⟩
  · exact absurd hlast hmore.ne
  · rw [heq]

/-- The Nth append also completes the slot and activates it. -/
theorem exec_appendCp_of_last (hslot : sl.toNat < s.used.toNat)
    (hlast : (s.slot sl.toNat).count.toNat + 1 = (s.slot sl.toNat).n.toNat) (hdur : dur ≠ 0) :
    exec (.appendCp sl r g b dur) s =
      .next (((s.setSlot sl.toNat (((s.slot sl.toNat).appended ⟨r, g, b, dur⟩).completed s.params.arith)).activate
        sl).respond .ok 0) := by
  rw [exec_appendCp_of_room hslot (Slot.count_ne_of_toNat_lt (by omega)) hdur]
  rcases appendPoint_cases s sl ⟨r, g, b, dur⟩ with ⟨-, heq⟩ | ⟨hmore, -⟩
  · rw [heq]
  · exact absurd hlast hmore

/-- The cursor of an allocated slot with room is an index of its points. -/
theorem State.Inv.count_lt_pt (hinv : s.Inv) (hslot : sl.toNat < s.used.toNat)
    (hroom : (s.slot sl.toNat).count.toNat < (s.slot sl.toNat).n.toNat) :
    (s.slot sl.toNat).count.toNat < (s.slot sl.toNat).pt.length := by
  obtain ⟨hpt, -⟩ := hinv.slot_arrays _ (hslot.trans_le hinv.used_le)
  have hn := (hinv.slot_loaded _ hslot).n_le
  omega

end

/-- Settles O20: the slot becomes `Slot.appended`, and the write lands by the invariant. -/
theorem appendStoresPoint : Obligations.AppendStoresPoint := by
  unfold Obligations.AppendStoresPoint
  intro s sl r g b dur hinv hslot hmore hdur
  have hroom : (s.slot sl.toNat).count.toNat < (s.slot sl.toNat).n.toNat := by omega
  have hcount := (hinv.slot_loaded _ hslot).count_succ (Slot.count_ne_of_toNat_lt hroom)
  refine ⟨_, exec_appendCp_of_not_last hslot hmore hdur, rfl, ?_⟩
  rw [State.respond_slot, hinv.slot_setSlot hslot]
  exact ⟨Slot.appended_point_self _ _ (hinv.count_lt_pt hslot hroom), hcount, rfl,
    fun i hi => Slot.appended_point_ne _ _ hi.symm, fun j hj => s.slot_setSlot_ne _ hj.symm⟩

/-- Settles O21: the slot becomes `Slot.completed` of the appended one, and is then activated. -/
theorem appendCompletesSlot : Obligations.AppendCompletesSlot := by
  unfold Obligations.AppendCompletesSlot
  intro s sl r g b dur hinv hslot hlast hdur
  have hroom : (s.slot sl.toNat).count.toNat < (s.slot sl.toNat).n.toNat := by omega
  have hloaded := hinv.slot_loaded _ hslot
  have hcount := hloaded.count_succ (Slot.count_ne_of_toNat_lt hroom)
  obtain ⟨-, hdelta⟩ := hinv.slot_arrays _ (hslot.trans_le hinv.used_le)
  have hn_le := hloaded.n_le
  refine ⟨_, exec_appendCp_of_last hslot hlast hdur, rfl, ?_⟩
  rw [State.respond_slot, State.activate_slot, hinv.slot_setSlot hslot]
  refine ⟨rfl, BitVec.eq_of_toNat_eq (hcount.trans hlast), rfl, rfl,
    Slot.appended_point_self _ _ (hinv.count_lt_pt hslot hroom), fun i hi => Slot.appended_point_ne _ _ hi.symm,
    fun i hi => ?_, fun i hi => ?_, placeLeds_length _ _ _, fun k hk => ?_, fun j hj => s.slot_setSlot_ne _ hj.symm⟩
  · rw [Slot.completed_segDelta, if_pos ⟨hi, by rw [Slot.appended_delta, hdelta]; omega⟩]
  · rw [Slot.completed_segDelta, if_neg fun ⟨hlt, _⟩ => not_lt.mpr hi hlt]
    rfl
  · rw [State.respond_led, State.activate_led, hinv.slot_setSlot hslot, State.setSlot_leds, hinv.led_count]
    simp only [hk, and_true, State.setSlot_params, State.setSlot_led]

end Sys2Proof.Machine

/-! # Proofs about activation (41_activation.md) -/

namespace Sys2Proof.Machine

/-! ## Rounding near and on the values of the format (00_scope.md R12) -/

/-- An integer of at most 24 bits, in any unit of the format, is a value of the format. -/
theorem nearest32_intCast_mul_pow2 {n k : Int} (hk : -149 ≤ k) (hn : n.natAbs < 2 ^ 24) :
    nearest32 (n * pow2 k) = n * pow2 k := by
  by_cases hzero : n = 0
  · simp [hzero]
  have hx := intCast_mul_pow2_ne_zero hzero k
  have hexp : exponent2 (n * pow2 k) < k + (24 : Nat) := by
    refine (pow2_lt_iff _ _).mp ((exponent2_spec hx).1.trans_lt ?_)
    rw [abs_intCast_mul_pow2, pow2_add_natCast]
    exact mul_lt_mul_of_pos_right (by exact_mod_cast hn) (pow2_pos k)
  have hulp : ulpExponent (n * pow2 k) ≤ k := by unfold ulpExponent; omega
  obtain ⟨d, hd⟩ := Int.le.dest hulp
  have hp := (pow2_pos (ulpExponent (n * pow2 k))).ne'
  have hquot : (n : Rat) * pow2 k / pow2 (ulpExponent (n * pow2 k)) = (n * (2 ^ d : Nat) : Int) := by
    rw [div_eq_iff hp, Int.cast_mul, mul_assoc, Int.cast_natCast, ← pow2_add_natCast, hd]
  rw [nearest32, if_neg hx, hquot, nearestEven_intCast, ← hquot, div_mul_cancel₀ _ hp]

theorem fitD_intCast_mul_pow2 (a : Arith) {n k : Int} (hk : -149 ≤ k) (hn : n.natAbs < 2 ^ 24) :
    fitD a (n * pow2 k) = n * pow2 k := by
  cases a with
  | exact => rfl
  | binary32 => exact nearest32_intCast_mul_pow2 hk hn

theorem fitD_intCast (a : Arith) {n : Int} (hn : n.natAbs < 2 ^ 24) : fitD a n = n := by
  simpa [pow2] using fitD_intCast_mul_pow2 a (k := 0) (by norm_num) hn

/-- Rounding does not cross a natural bound on the magnitude. -/
theorem abs_fitD_le_natCast (a : Arith) {x : Rat} {n : Nat} (hn : n < 2 ^ 24) (h : |x| ≤ n) : |fitD a x| ≤ n := by
  have hn' : (n : Rat) ≤ 2 ^ 24 := by exact_mod_cast hn.le
  have hbound : |(n : Rat)| ≤ 2 ^ 24 := by rwa [Nat.abs_cast]
  have hpos : fitD a n = n := fitD_natCast a hn
  have hneg : fitD a (-n) = -n := by exact_mod_cast fitD_intCast a (n := -n) (by omega)
  obtain ⟨hlo, hhi⟩ := abs_le.mp h
  rw [abs_le]
  constructor
  · rw [← hneg]
    exact fitD_mono (by rwa [abs_neg]) (h.trans hn') a hlo
  · rw [← hpos]
    exact fitD_mono (h.trans hn') hbound a hhi

/-- Rounding moves a value by at most half its unit. -/
theorem nearest32_error_le_half_ulp (x : Rat) : |nearest32 x - x| ≤ pow2 (ulpExponent x) / 2 := by
  have hp := pow2_pos (ulpExponent x)
  by_cases hx : x = 0
  · subst hx
    rw [nearest32_zero, sub_zero, abs_zero]
    linarith
  · have herr := nearestEven_error (x / pow2 (ulpExponent x))
    have hdist := abs_mul_pow2_sub (roundedSignificand x) (x / pow2 (ulpExponent x)) (ulpExponent x)
    rw [div_mul_cancel₀ _ hp.ne', ← nearest32_eq_mul hx] at hdist
    rw [hdist, roundedSignificand]
    linarith [mul_le_mul_of_nonneg_right herr hp.le]

/-- Below 256, the range of a channel, a point position and a step count, the unit is at most `2^-16`. -/
theorem fitD_error (a : Arith) {x : Rat} (h : |x| < 256) : |fitD a x - x| ≤ 1 / 2 ^ 17 := by
  cases a with
  | exact => simp
  | binary32 =>
    by_cases hx : x = 0
    · simp [hx]
    have hexp : exponent2 x < 8 := by
      refine (pow2_lt_iff _ _).mp ((exponent2_spec hx).1.trans_lt (h.trans_le ?_))
      norm_num [pow2]
    have hulp : pow2 (ulpExponent x) ≤ pow2 (-16) := (pow2_le_iff _ _).mpr (by unfold ulpExponent; omega)
    have hunit : pow2 (-16) = 1 / 2 ^ 16 := by norm_num [pow2_eq_zpow]
    refine (nearest32_error_le_half_ulp x).trans ?_
    linarith

/-- The fraction of a nonnegative value of the format is in the format: its significand is a remainder of the
value's, in the same unit (41_activation.md R105 item 3). -/
theorem InFormat.nearest32_fract {n k : Int} (h : InFormat n k) (hn : 0 ≤ n) :
    nearest32 (Int.fract ((n : Rat) * pow2 k)) = Int.fract ((n : Rat) * pow2 k) := by
  obtain ⟨hk, hlt, -⟩ := h
  have hvalue : 0 ≤ (n : Rat) * pow2 k := mul_nonneg (by exact_mod_cast hn) (pow2_pos k).le
  rcases le_or_gt 0 k with hint | hfrac
  · obtain ⟨d, rfl⟩ := Int.eq_ofNat_of_zero_le hint
    have hzero : Int.fract ((n : Rat) * pow2 d) = 0 := by
      rw [Int.fract_eq_zero_iff]
      exact ⟨n * (2 ^ d : Nat), by rw [Int.cast_mul]; rfl⟩
    rw [hzero, nearest32_zero]
  · obtain ⟨d, hd⟩ := Int.le.dest hfrac.le
    have hone : pow2 k * (2 ^ d : Nat) = 1 := by rw [mul_comm, ← pow2_add_natCast, hd]; rfl
    have hrem : Int.fract ((n : Rat) * pow2 k) =
        ((n - ⌊(n : Rat) * pow2 k⌋ * (2 ^ d : Nat) : Int) : Rat) * pow2 k := by
      rw [← Int.self_sub_floor]
      push_cast at hone ⊢
      linear_combination (⌊(n : Rat) * pow2 k⌋ : Rat) * hone
    have hfloor : 0 ≤ ⌊(n : Rat) * pow2 k⌋ * ((2 ^ d : Nat) : Int) :=
      mul_nonneg (Int.floor_nonneg.mpr hvalue) (Int.natCast_nonneg _)
    have hrem_nonneg : 0 ≤ n - ⌊(n : Rat) * pow2 k⌋ * ((2 ^ d : Nat) : Int) := by
      have := Int.fract_nonneg ((n : Rat) * pow2 k)
      rw [hrem] at this
      exact_mod_cast nonneg_of_mul_nonneg_left this (pow2_pos k)
    rw [hrem]
    exact nearest32_intCast_mul_pow2 hk (by omega)

/-- A value of an arithmetic keeps its fraction in it. -/
theorem fitD_fract_fitD (a : Arith) {x : Rat} (h0 : 0 ≤ x) (h : x ≤ 2 ^ 24) :
    fitD a (Int.fract (fitD a x)) = Int.fract (fitD a x) := by
  cases a with
  | exact => rfl
  | binary32 =>
    obtain ⟨v, -, hv, -⟩ := nearest32IsNearestEven x (abs_le_range32 (by rwa [abs_of_nonneg h0]))
    have hnonneg := fitD_nonneg .binary32 h0 h
    rw [value32_eq] at hv
    simp only [fitD_binary32, ← hv] at hnonneg ⊢
    exact (inFormat_fields v).nearest32_fract (by exact_mod_cast nonneg_of_mul_nonneg_left hnonneg (pow2_pos _))

/-! ## The delta table (41_activation.md R101) -/

theorem abs_toNat_sub_toNat_le (x y : U8) : |(y.toNat : Rat) - x.toNat| ≤ 255 := by
  have hx : (x.toNat : Rat) ≤ 255 := by exact_mod_cast Nat.le_of_lt_succ x.isLt
  have hy : (y.toNat : Rat) ≤ 255 := by exact_mod_cast Nat.le_of_lt_succ y.isLt
  rw [abs_le]
  constructor <;> linarith [Nat.cast_nonneg (α := Rat) x.toNat, Nat.cast_nonneg (α := Rat) y.toNat]

/-- The operands of a delta are integers that both arithmetics hold exactly, so it is one quotient rounded once. -/
theorem deltaChannel_eq (a : Arith) (cur next dur : U8) :
    deltaChannel a cur next dur = fitD a (((next.toNat : Rat) - cur.toNat) / dur.toNat) := by
  have hcur := cur.isLt
  have hnext := next.isLt
  have hdur := dur.isLt
  rw [deltaChannel, divD, toD_natCast a (by omega), toD, fitD_intCast a (by omega)]
  push_cast
  rfl

theorem deltaChannel_self (a : Arith) (c dur : U8) : deltaChannel a c c dur = 0 := by
  rw [deltaChannel_eq, sub_self, zero_div, fitD_zero]

/-- The quotient that a delta rounds is largest for the duration 1. -/
theorem abs_sub_div_dur_le (cur next : U8) {dur : U8} (hdur : 1 ≤ dur.toNat) :
    |((next.toNat : Rat) - cur.toNat) / dur.toNat| ≤ 255 := by
  have hdur' : (1 : Rat) ≤ dur.toNat := by exact_mod_cast hdur
  rw [abs_div, Nat.abs_cast]
  exact (div_le_self (abs_nonneg _) hdur').trans (abs_toNat_sub_toNat_le cur next)

theorem abs_deltaChannel_le (a : Arith) (cur next : U8) {dur : U8} (hdur : 1 ≤ dur.toNat) :
    |deltaChannel a cur next dur| ≤ 255 := by
  rw [deltaChannel_eq]
  exact abs_fitD_le_natCast a (n := 255) (by norm_num) (abs_sub_div_dur_le cur next hdur)

/-- The one segment of an `N = 1` slot goes from its point to itself. -/
theorem segmentDelta_of_n_eq_one (a : Arith) {sl : Slot} (hn : sl.n = 1) :
    segmentDelta a sl 0 = { dr := 0, dg := 0, db := 0 } := by
  simp [segmentDelta, hn, deltaChannel_self]

/-- Settles O31: every delta is `deltaChannel`, one rounded quotient, and COMPUTE_DELTAS writes it for each segment. -/
theorem deltaIsDifferenceOverDuration : Obligations.DeltaIsDifferenceOverDuration := by
  unfold Obligations.DeltaIsDifferenceOverDuration
  refine ⟨fun a cur next dur hdur => ⟨deltaChannel_eq a cur next dur, ?_, ?_⟩, fun a => ⟨?_, ?_⟩,
    fun a sl i hi hlen => ?_⟩
  · exact abs_deltaChannel_le a cur next (Nat.one_le_iff_ne_zero.mpr fun he => hdur (BitVec.eq_of_toNat_eq he))
  · rintro rfl
    exact deltaChannel_self a cur dur
  · rw [deltaChannel_eq]
    simpa using fitD_intCast a (n := 255) (by norm_num)
  · rw [deltaChannel_eq]
    simpa using fitD_intCast a (n := -255) (by norm_num)
  · rw [computeDeltas_segDelta, if_pos ⟨hi, hlen⟩]
    refine ⟨rfl, fun hn _ => ?_⟩
    obtain rfl : i = 0 := by simpa [hn] using hi
    exact segmentDelta_of_n_eq_one a hn

/-! ## The wave blocks (41_activation.md R103, R104) -/

/-- An LED below `B·L` is at one offset of one of `B` blocks of `L` LEDs. -/
theorem lt_mul_iff_exists_block {B L k : Nat} :
    k < B * L ↔ ∃ b j, b < B ∧ j < L ∧ k = b * L + j ∧ j = k % L := by
  constructor
  · intro hk
    have hL : 0 < L := Nat.pos_of_mul_pos_left (Nat.zero_lt_of_lt hk)
    exact ⟨k / L, k % L, (Nat.div_lt_iff_lt_mul hL).mpr hk, Nat.mod_lt k hL, (Nat.div_add_mod' k L).symm, rfl⟩
  · rintro ⟨b, j, hb, hj, rfl, -⟩
    calc b * L + j < (b + 1) * L := by rw [Nat.succ_mul]; omega
      _ ≤ B * L := Nat.mul_le_mul_right L hb

section
variable {p : Params} {sl : Slot} (hw : 1 ≤ sl.w.toNat) (hw_le : sl.w.toNat ≤ p.numLeds)
include hw hw_le

theorem numWaves_pos : 1 ≤ numWaves p sl := Nat.div_pos hw_le hw

/-- Rounding `numWaves` down makes the blocks no shorter than the wave width. -/
theorem le_ledsPerWave : sl.w.toNat ≤ ledsPerWave p sl :=
  (Nat.le_div_iff_mul_le (numWaves_pos hw hw_le)).mpr (Nat.mul_div_le p.numLeds sl.w.toNat)

theorem ledsPerWave_of_dvd (hdvd : sl.w.toNat ∣ p.numLeds) : ledsPerWave p sl = sl.w.toNat :=
  Nat.div_div_self hdvd (by omega)

end

theorem numLeds_sub_placedLeds (p : Params) (sl : Slot) :
    p.numLeds - placedLeds p sl = p.numLeds % numWaves p sl := Nat.mod_eq_sub_mul_div.symm

/-- Settles O32, each clause from the geometry above. -/
theorem blockGeometry : Obligations.BlockGeometry := by
  unfold Obligations.BlockGeometry
  intro p sl hw hw_le
  have hpos := numWaves_pos hw hw_le
  refine ⟨rfl, hpos, rfl, le_ledsPerWave hw hw_le, rfl, placedLeds_le p sl, numLeds_sub_placedLeds p sl, ?_,
    fun k => lt_mul_iff_exists_block, fun hdvd => ?_⟩
  · rw [numLeds_sub_placedLeds]
    exact Nat.mod_lt _ hpos
  · have hL := ledsPerWave_of_dvd hw hw_le hdvd
    refine ⟨hL, ?_⟩
    rw [placedLeds, hL]
    exact Nat.div_mul_cancel hdvd

/-- ACTIVATE keeps the trailing LEDs. -/
theorem State.activate_led_trailing (s : State) (sl : U8) {k : Nat}
    (hk : placedLeds s.params (s.slot sl.toNat) ≤ k) : (s.activate sl).led k = s.led k := by
  rw [State.activate_led, if_neg fun ⟨hlt, _⟩ => not_lt.mpr hk hlt]

/-- Settles O33: of these two commands only ACTIVATE writes LEDs, and it places by the slot that stands after the
command. -/
theorem trailingLedsKept : Obligations.TrailingLedsKept := by
  unfold Obligations.TrailingLedsKept
  intro i s t sl hi h k hk
  cases exec_effect h with
  | refused | answered | allocated | stored => rfl
  | completed sl' =>
    obtain rfl : sl' = sl := by simpa using hi
    exact State.activate_led_trailing (s.setSlot _ _) _ hk
  | started sl' =>
    obtain rfl : sl' = sl := by simpa using hi
    exact s.activate_led_trailing _ hk
  | stepped => simp at hi

/-! ## START_GRADIENT (41_activation.md R110) -/

/-- The six unused bytes of format S are one field of zeros (30_encoding.md R65). -/
theorem encode_startGradient (sl : U8) : encode (.startGradient sl) = (0x03#8 ++ sl ++ 0#48 : CmdWord) := by
  apply BitVec.eq_of_toNat_eq
  simp only [encode, packFields, BitVec.toNat_append, BitVec.ofNat_eq_ofNat, BitVec.toNat_ofNat, Nat.zero_mod,
    Nat.or_zero, ← Nat.shiftLeft_add]
  rfl

section
variable {s : State} {sl : U8}

theorem exec_startGradient_of_unallocated (hslot : s.used.toNat ≤ sl.toNat) :
    exec (.startGradient sl) s = .next (s.respond .indexOutOfRange 0) := by
  rw [exec, execStartGradient, if_pos ((slotUnallocated_iff s sl).mpr hslot), s.raiseError_eq_respond rfl]

theorem exec_startGradient_of_not_ready (hslot : sl.toNat < s.used.toNat)
    (hlife : (s.slot sl.toNat).life ≠ .ready) :
    exec (.startGradient sl) s = .next (s.respond .notReady 0) := by
  rw [exec, execStartGradient, if_neg (mt (slotUnallocated_iff s sl).mp hslot.not_ge), if_pos hlife,
    s.raiseError_eq_respond rfl]

end

/-- Settles O22: the refusals in the order of the checks, then ACTIVATE. -/
theorem startGradientResult : Obligations.StartGradientResult := by
  unfold Obligations.StartGradientResult
  refine ⟨fun w sl => ?_, fun s sl hslot => ?_, fun s sl hslot hlife => ?_, fun s sl hinv hslot hready => ?_⟩
  · rw [decodeWord_eq_ok_iff_eq_encode rfl, encode_startGradient]
  · rw [exec_startGradient_of_unallocated hslot]
    rfl
  · rw [exec_startGradient_of_not_ready hslot hlife]
    rfl
  · refine ⟨_, exec_startGradient_of_ready hslot hready, rfl, placeLeds_length _ _ _, fun k hk => ?_⟩
    rw [State.respond_led, State.activate_led, hinv.led_count]
    simp only [hk, and_true]
    rfl

/-! ## The point index and the fraction of its segment (41_activation.md R105) -/

/-- An offset of a block is in one of the `N` segments. -/
theorem mul_div_lt_of_lt {j L N : Nat} (hj : j < L) (hN : 1 ≤ N) : j * N / L < N :=
  Nat.div_lt_of_lt_mul (Nat.mul_lt_mul_of_pos_right hj hN)

/-- The value `2^-16` below an integer of the range of a point position is in both arithmetics. -/
theorem fitD_succ_sub (a : Arith) {q : Nat} (hq : q < 255) :
    fitD a ((q : Rat) + 1 - 1 / 2 ^ 16) = (q : Rat) + 1 - 1 / 2 ^ 16 := by
  have hvalue : (((q + 1) * 2 ^ 16 - 1 : Int) : Rat) * pow2 (-16) = (q : Rat) + 1 - 1 / 2 ^ 16 := by
    rw [pow2_eq_zpow]
    push_cast
    ring
  rw [← hvalue]
  exact fitD_intCast_mul_pow2 a (by norm_num) (by omega)

/-- Rounding a quotient by a `u16` does not reach the next integer: the quotient is at least `1/L` below it, and the
value `2^-16` below it rounds to itself. -/
theorem floor_fitD_div (a : Arith) {m L : Nat} (hL : L ≤ 65535) (hpos : 0 < L) (hm : m / L < 255) :
    ⌊fitD a ((m : Rat) / L)⌋ = (m / L : Nat) := by
  have hLpos : (0 : Rat) < L := by exact_mod_cast hpos
  have hL' : (L : Rat) ≤ 65535 := by exact_mod_cast hL
  have hlo : ((m / L : Nat) : Rat) ≤ (m : Rat) / L := Nat.cast_div_le
  have hhi : (m : Rat) / L ≤ ((m / L : Nat) : Rat) + 1 - 1 / 2 ^ 16 := by
    have hsucc : (m : Rat) + 1 ≤ L * (((m / L : Nat) : Rat) + 1) := by exact_mod_cast Nat.lt_mul_div_succ m hpos
    rw [div_le_iff₀ hLpos]
    linarith
  have hq : ((m / L : Nat) : Rat) ≤ 254 := by exact_mod_cast Nat.le_of_lt_succ hm
  have hq0 : (0 : Rat) ≤ (m / L : Nat) := Nat.cast_nonneg _
  have hrange : ∀ x : Rat, 0 ≤ x → x ≤ 255 → |x| ≤ 2 ^ 24 := fun x h0 h => by rw [abs_of_nonneg h0]; linarith
  have hx := hrange _ (hq0.trans hlo) (by linarith)
  rw [Int.floor_eq_iff, Int.cast_natCast]
  constructor
  · calc ((m / L : Nat) : Rat) = fitD a (m / L : Nat) := (fitD_natCast a (by omega)).symm
      _ ≤ fitD a (m / L) := fitD_mono (hrange _ hq0 (by linarith)) hx a hlo
  · calc fitD a ((m : Rat) / L) ≤ fitD a (((m / L : Nat) : Rat) + 1 - 1 / 2 ^ 16) :=
          fitD_mono hx (hrange _ (by linarith) (by linarith)) a hhi
      _ = ((m / L : Nat) : Rat) + 1 - 1 / 2 ^ 16 := fitD_succ_sub a hm
      _ < ((m / L : Nat) : Rat) + 1 := by linarith

section
variable (a : Arith) (sl : Slot) {L j : Nat} (hL : L ≤ 65535) (hj : j < L)
include hL hj

theorem floor_pointPos : ⌊pointPos a sl L j⌋ = (j * sl.n.toNat / L : Nat) := by
  have hn := sl.n.isLt
  have hidx : j * sl.n.toNat / L < 255 := by
    rcases Nat.eq_zero_or_pos sl.n.toNat with hzero | hpos
    · simp [hzero]
    · have := mul_div_lt_of_lt hj hpos
      omega
  rw [pointPos_eq a sl hL hj, floor_fitD_div a hL (Nat.zero_lt_of_lt hj) hidx]

theorem pointIdx_eq : pointIdx a sl L j = j * sl.n.toNat / L := by
  rw [pointIdx, floorD_eq, floor_pointPos a sl hL hj, Int.toNat_natCast]

/-- `subPoint` is the fraction of `pointPos`, with no rounding. -/
theorem subPoint_eq_fract : subPoint a sl L j = Int.fract (pointPos a sl L j) := by
  have hLpos : (0 : Rat) < L := by exact_mod_cast Nat.zero_lt_of_lt hj
  have hle : ((j * sl.n.toNat : Nat) : Rat) / L ≤ 2 ^ 24 := by
    have hn := sl.n.isLt
    have hprod : j * sl.n.toNat ≤ 2 ^ 24 * L := by nlinarith
    rw [div_le_iff₀ hLpos]
    exact_mod_cast hprod
  rw [subPoint_eq a sl hL hj, pointPos_eq a sl hL hj, fitD_fract_fitD a (by positivity) hle]

end

/-- Settles O36: rounding reaches no integer, and the fraction of a value of the format is in it. -/
theorem pointIndexExactInBothArithmetics : Obligations.PointIndexExactInBothArithmetics := by
  unfold Obligations.PointIndexExactInBothArithmetics
  intro a sl L j hj hL
  have hidx := pointIdx_eq a sl hL hj
  refine ⟨hidx, ?_⟩
  rw [subPoint_eq_fract a sl hL hj, ← Int.self_sub_floor, floor_pointPos a sl hL hj, hidx, Int.cast_natCast]

/-! ## The placed phase (41_activation.md R106, R109 item 3) -/

/-- Storing a segment of the slot as u8 loses nothing. -/
theorem placeLed_idx {a : Arith} {sl : Slot} {L j : Nat} (hidx : pointIdx a sl L j < sl.n.toNat) :
    (placeLed a sl L j).idx.toNat = pointIdx a sl L j := by
  have hn := sl.n.isLt
  rw [placeLed, BitVec.toNat_ofNat, Nat.mod_eq_of_lt (by omega)]

section
variable {p : Params} {sl : Slot} (h : sl.Loaded p) (hready : sl.life = .ready)
include h hready

/-- Every point of a READY slot has a duration. -/
theorem Slot.Loaded.dur_pos_of_ready {i : Nat} (hi : i < sl.n.toNat) : 1 ≤ (sl.point i).dur.toNat :=
  h.dur_pos i (by rwa [h.ready_iff.mp hready])

end

/-- Settles O35, from the exact point index and the step count below the duration. -/
theorem placedPhaseInRange : Obligations.PlacedPhaseInRange := by
  unfold Obligations.PlacedPhaseInRange
  intro p sl L j _ h hready hj hL
  have hlt : pointIdx p.arith sl L j < sl.n.toNat := by
    rw [pointIdx_eq p.arith sl hL hj]
    exact mul_div_lt_of_lt hj h.n_pos
  rw [PhaseInRange, placeLed_idx hlt]
  exact ⟨hlt, (placeLed_sc p.arith sl hL hj (h.dur_pos_of_ready hready hlt)).2⟩

/-- Rounding fixes the channels. -/
theorem colorU8_toNat_cast (c : U8) : colorU8 (c.toNat : Rat) = c := by
  have hc := c.isLt
  have hround : roundD (c.toNat : Rat) = c.toNat := mod_cast roundD_intCast c.toNat
  apply BitVec.eq_of_toNat_eq
  have hcolor := colorU8_toNat (c.toNat : Rat)
  rw [roundD_clampD, hround] at hcolor
  omega

/-- No step into the segment leaves the point's color. -/
theorem placeChannel_zero (a : Arith) (c : U8) (d : D) : placeChannel a c 0 d = c := by
  have hc := c.isLt
  rw [placeChannel, mulD, zero_mul, fitD_zero, addD, add_zero, toD_natCast a (by omega),
    fitD_natCast a (by omega), colorU8_toNat_cast]

section
variable (a : Arith) (sl : Slot) (L : Nat)

/-- Offset 0 is at position 0, whatever `L` is. -/
theorem pointPos_zero : pointPos a sl L 0 = 0 := by simp [pointPos, divD, toD]

theorem pointIdx_zero : pointIdx a sl L 0 = 0 := by
  rw [pointIdx, pointPos_zero]
  rfl

theorem placeStep_zero : placeStep a sl L 0 = 0 := by
  simp [placeStep, subPoint, pointPos_zero, pointIdx_zero, mulD, subD, toD]

end

/-- Settles O37: position 0 is the start of segment 0. -/
theorem blockStartsAtPointZero : Obligations.BlockStartsAtPointZero := by
  unfold Obligations.BlockStartsAtPointZero
  intro a sl L
  simp only [placeLed, pointIdx_zero, placeStep_zero, placeChannel_zero]
  rfl

/-! ## The line between two control points (41_activation.md R107, R109 item 1) -/

/-- The line from channel `x` to channel `y` at the fraction `f` of its length. -/
def lineValue (x y : U8) (f : Rat) : Rat := x.toNat + f * ((y.toNat : Rat) - x.toNat)

/-- The line stays between its ends. -/
theorem lineValue_bounds (x y : U8) {f : Rat} (h0 : 0 ≤ f) (h1 : f ≤ 1) :
    0 ≤ lineValue x y f ∧ lineValue x y f ≤ 255 := by
  have hx : (x.toNat : Rat) ≤ 255 := by exact_mod_cast Nat.le_of_lt_succ x.isLt
  have hy : (y.toNat : Rat) ≤ 255 := by exact_mod_cast Nat.le_of_lt_succ y.isLt
  have hx0 : (0 : Rat) ≤ x.toNat := Nat.cast_nonneg _
  have hy0 : (0 : Rat) ≤ y.toNat := Nat.cast_nonneg _
  unfold lineValue
  constructor <;> nlinarith

/-- CLAMP moves a value no farther from a value in its range. -/
theorem abs_clampD_sub_le (x : D) {y : Rat} (h0 : 0 ≤ y) (h1 : y ≤ 255) : |clampD x - y| ≤ |x - y| := by
  unfold clampD
  split_ifs with hneg hbig
  · rw [abs_of_nonpos (by linarith), abs_of_nonpos (by linarith)]
    linarith
  · rw [abs_of_nonneg (by linarith), abs_of_nonneg (by linarith)]
    linarith
  · rfl

theorem clampD_eq_self {x : D} (h0 : 0 ≤ x) (h1 : x ≤ 255) : clampD x = x := by
  rw [clampD, if_neg h0.not_gt, if_neg h1.not_gt]

theorem abs_roundD_sub_le (x : D) : |(roundD x : Rat) - x| ≤ 1 / 2 := by
  rw [roundD, floorD_eq, abs_le]
  constructor <;> linarith [Int.floor_le (x + 1 / 2), Int.lt_floor_add_one (x + 1 / 2)]

/-- A stored color is within one half more of a value in its range than the value it is rounded from. -/
theorem abs_colorU8_sub_le (x : D) {y : Rat} (h0 : 0 ≤ y) (h1 : y ≤ 255) :
    |((colorU8 x).toNat : Rat) - y| ≤ 1 / 2 + |x - y| := by
  have hcolor : ((colorU8 x).toNat : Rat) = (roundD (clampD x) : Int) := by exact_mod_cast colorU8_toNat x
  have htri := abs_sub_le ((roundD (clampD x) : Int) : Rat) (clampD x) y
  rw [hcolor]
  linarith [abs_roundD_sub_le (clampD x), abs_clampD_sub_le x h0 h1]

/-- On the line CLAMP never acts, and ROUND is one integer division. -/
theorem colorU8_lineValue (x y : U8) {r L : Nat} (hr : r < L) :
    ((colorU8 (lineValue x y (r / L))).toNat : Int) =
      x.toNat + (2 * (r : Int) * ((y.toNat : Int) - x.toNat) + L) / (2 * L) := by
  have hL : (0 : Rat) < L := by exact_mod_cast Nat.zero_lt_of_lt hr
  have hfrac : (r : Rat) / L ≤ 1 := (div_le_one hL).mpr (by exact_mod_cast hr.le)
  obtain ⟨h0, h1⟩ := lineValue_bounds x y (by positivity) hfrac
  have hhalf : lineValue x y (r / L) + 1 / 2 = (x.toNat : Int) +
      ((2 * (r : Int) * ((y.toNat : Int) - x.toNat) + L : Int) : Rat) / (2 * L : Nat) := by
    rw [lineValue]
    push_cast
    field_simp
    ring
  rw [colorU8_toNat, clampD_eq_self h0 h1, roundD, floorD_eq, hhalf, Int.floor_intCast_add,
    Rat.floor_intCast_div_natCast]
  push_cast
  rfl

/-- The value of a channel that a placement rounds: `t` steps along the delta from `x` to `y`. -/
def placedValue (a : Arith) (x y dur : U8) (t : D) : D :=
  addD a (toD a (x.toNat : Int)) (mulD a t (deltaChannel a x y dur))

theorem placeChannel_eq (a : Arith) (x y dur : U8) (t : D) :
    placeChannel a x t (deltaChannel a x y dur) = colorU8 (placedValue a x y dur t) := rfl

/-- Under EXACT the duration cancels out of the color. -/
theorem placedValue_exact (x y : U8) {dur : U8} (hdur : 1 ≤ dur.toNat) (f : Rat) :
    placedValue .exact x y dur (f * dur.toNat) = lineValue x y f := by
  have hdur' : (dur.toNat : Rat) ≠ 0 := by exact_mod_cast Nat.one_le_iff_ne_zero.mp hdur
  rw [placedValue, deltaChannel_eq, addD, mulD, toD, lineValue]
  simp only [fitD_exact, Int.cast_natCast]
  field_simp

/-- A delta over the whole duration gives the difference of the channels, but for the rounding of the delta. -/
theorem dur_mul_deltaChannel_error (a : Arith) (x y : U8) {dur : U8} (hdur : 1 ≤ dur.toNat) :
    |dur.toNat * deltaChannel a x y dur - ((y.toNat : Rat) - x.toNat)| ≤ dur.toNat / 2 ^ 17 := by
  have hdur' : (1 : Rat) ≤ dur.toNat := by exact_mod_cast hdur
  have herr := fitD_error a ((abs_sub_div_dur_le x y hdur).trans_lt (by norm_num))
  have hsplit : dur.toNat * deltaChannel a x y dur - ((y.toNat : Rat) - x.toNat) =
      dur.toNat * (fitD a (((y.toNat : Rat) - x.toNat) / dur.toNat) - ((y.toNat : Rat) - x.toNat) / dur.toNat) := by
    rw [deltaChannel_eq, mul_sub, mul_div_cancel₀ _ (by linarith)]
  rw [hsplit, abs_mul, Nat.abs_cast, div_eq_mul_one_div (dur.toNat : Rat)]
  exact mul_le_mul_of_nonneg_left herr (Nat.cast_nonneg _)

section
variable (a : Arith) (x y : U8) {dur : U8} (hdur : 1 ≤ dur.toNat) {f t : Rat} (hf0 : 0 ≤ f) (hf1 : f ≤ 1)
  (ht : |t - f * dur.toNat| ≤ (dur.toNat + 1) / 2 ^ 17)
include hdur hf0 hf1 ht

/-- A step count and a delta, each off by about a unit of `2^-17`, have a product near the line: the duration cancels
out of the error of the step. -/
theorem step_mul_deltaChannel_error :
    |t * deltaChannel a x y dur - f * ((y.toNat : Rat) - x.toNat)| ≤ 1 / 2 ^ 7 := by
  have hdur1 : (1 : Rat) ≤ dur.toNat := by exact_mod_cast hdur
  have hdur255 : (dur.toNat : Rat) ≤ 255 := by exact_mod_cast Nat.le_of_lt_succ dur.isLt
  have hdelta := dur_mul_deltaChannel_error a x y hdur
  have hdiff := abs_toNat_sub_toNat_le x y
  generalize deltaChannel a x y dur = d at hdelta ⊢
  generalize (y.toNat : Rat) - x.toNat = diff at hdelta hdiff ⊢
  generalize (dur.toNat : Rat) = n at *
  have hwhole : n * |d| ≤ 256 := by
    have htri := abs_sub_abs_le_abs_sub (n * d) diff
    rw [abs_mul, abs_of_nonneg (by linarith)] at htri
    linarith
  have hstep : |(t - f * n) * d| ≤ 1 / 2 ^ 8 := by
    rw [abs_mul]
    nlinarith [mul_le_mul_of_nonneg_right ht (abs_nonneg d), abs_nonneg d]
  have hslope : |f * (n * d - diff)| ≤ 1 / 2 ^ 9 := by
    rw [abs_mul, abs_of_nonneg hf0]
    linarith [mul_le_of_le_one_left (abs_nonneg (n * d - diff)) hf1]
  have hsplit : t * d - f * diff = (t - f * n) * d + f * (n * d - diff) := by ring
  rw [hsplit]
  linarith [abs_add_le ((t - f * n) * d) (f * (n * d - diff))]

/-- In both arithmetics a near step count gives a value within one half of the line. -/
theorem placedValue_error : |placedValue a x y dur t - lineValue x y f| ≤ 1 / 2 := by
  have hx := x.isLt
  obtain ⟨hline0, hline1⟩ := lineValue_bounds x y hf0 hf1
  have hprod := step_mul_deltaChannel_error a x y hdur hf0 hf1 ht
  have hdiff : |f * ((y.toNat : Rat) - x.toNat)| ≤ 255 := by
    rw [abs_mul, abs_of_nonneg hf0]
    exact (mul_le_of_le_one_left (abs_nonneg _) hf1).trans (abs_toNat_sub_toNat_le x y)
  have htri := abs_sub_abs_le_abs_sub (t * deltaChannel a x y dur) (f * ((y.toNat : Rat) - x.toNat))
  have hmul := fitD_error a (x := t * deltaChannel a x y dur) (by linarith)
  rw [placedValue, toD_natCast a (by omega), addD, mulD]
  rw [lineValue] at *
  rw [abs_le] at hprod hmul ⊢
  have hadd := fitD_error a (x := x.toNat + fitD a (t * deltaChannel a x y dur))
    (by rw [abs_lt]; constructor <;> linarith)
  rw [abs_le] at hadd
  constructor <;> linarith

end

/-! ## The placed LED (41_activation.md R102, R107, R109 item 1) -/

section
variable {p : Params} {sl : Slot} (h : sl.Loaded p) (hready : sl.life = .ready)
include h hready

/-- A placed LED of a READY slot, in terms of the segment's two points. -/
theorem Slot.Loaded.placeLed_eq {L j i : Nat} (hidx : pointIdx p.arith sl L j = i) (hi : i < sl.n.toNat) :
    placeLed p.arith sl L j =
      { r := colorU8 (placedValue p.arith (sl.point i).r (sl.point ((i + 1) % sl.n.toNat)).r (sl.point i).dur
          (placeStep p.arith sl L j))
        g := colorU8 (placedValue p.arith (sl.point i).g (sl.point ((i + 1) % sl.n.toNat)).g (sl.point i).dur
          (placeStep p.arith sl L j))
        b := colorU8 (placedValue p.arith (sl.point i).b (sl.point ((i + 1) % sl.n.toNat)).b (sl.point i).dur
          (placeStep p.arith sl L j))
        idx := BitVec.ofNat 8 i
        sc := BitVec.ofInt 8 (floorD (placeStep p.arith sl L j)) } := by
  rw [placeLed, hidx, h.deltas hready i hi]
  rfl

end

section
variable (sl : Slot) (L j : Nat)

theorem pointPos_exact : pointPos .exact sl L j = (j * sl.n.toNat : Nat) / L := rfl

theorem pointIdx_exact : pointIdx .exact sl L j = j * sl.n.toNat / L := by
  rw [pointIdx, pointPos_exact, floorD_eq, Rat.floor_natCast_div_natCast]
  exact Int.toNat_natCast _

theorem subPoint_exact : subPoint .exact sl L j = ((j * sl.n.toNat % L : Nat) : Rat) / L := by
  have hidx : (pointIdx .exact sl L j : Rat) = ⌊((j * sl.n.toNat : Nat) : Rat) / L⌋ := by
    rw [pointIdx_exact, Rat.floor_natCast_div_natCast]
    rfl
  rw [subPoint, subD, toD, fitD_exact, fitD_exact, Int.cast_natCast, pointPos_exact, hidx, Int.self_sub_floor,
    Int.fract_div_natCast_eq_div_natCast_mod]

theorem placeStep_exact : placeStep .exact sl L j =
    ((j * sl.n.toNat % L : Nat) : Rat) / L * (sl.point (j * sl.n.toNat / L)).dur.toNat := by
  rw [placeStep_eq, subPoint_exact, pointIdx_exact, fitD_exact]

end

/-- The step count stored under EXACT: below the duration, so nothing is lost. -/
theorem ofInt_floorD_div_mul {r L : Nat} (hr : r < L) (dur : U8) :
    (BitVec.ofInt 8 (floorD ((r : Rat) / L * dur.toNat))).toNat = r * dur.toNat / L := by
  have hlt := dur.isLt
  have hle : r * dur.toNat / L ≤ dur.toNat := Nat.div_le_of_le_mul (Nat.mul_le_mul_right _ hr.le)
  have hfloor : floorD ((r : Rat) / L * dur.toNat) = (r * dur.toNat / L : Nat) := by
    rw [div_mul_eq_mul_div, ← Nat.cast_mul, floorD_eq, Rat.floor_natCast_div_natCast]
    rfl
  rw [hfloor, BitVec.ofInt_natCast, BitVec.toNat_ofNat, Nat.mod_eq_of_lt (hle.trans_lt hlt)]

/-- Settles O34: under EXACT the step count is `r·dur/L` and the colors are on the line at `r/L`. -/
theorem exactPlacementClosedForm : Obligations.ExactPlacementClosedForm := by
  unfold Obligations.ExactPlacementClosedForm
  intro p sl L j _ harith h hready hj
  have hL : 0 < L := Nat.zero_lt_of_lt hj
  have hr : j * sl.n.toNat % L < L := Nat.mod_lt _ hL
  have hi : j * sl.n.toNat / L < sl.n.toNat := mul_div_lt_of_lt hj h.n_pos
  have hdur := h.dur_pos_of_ready hready hi
  have hidx := pointIdx_exact sl L j
  have hled := h.placeLed_eq hready (L := L) (j := j) (by rw [harith, hidx]) hi
  rw [harith, placeStep_exact] at hled
  simp only [placedValue_exact _ _ hdur] at hled
  refine ⟨(placeLed_idx (hidx.trans_lt hi)).trans hidx, ?_⟩
  rw [hled]
  exact ⟨ofInt_floorD_div_mul hr _, colorU8_lineValue _ _ hr, colorU8_lineValue _ _ hr, colorU8_lineValue _ _ hr⟩

section
variable (a : Arith) (sl : Slot) {L j : Nat} (hL : L ≤ 65535) (hj : j < L)
include hL hj

/-- The fraction of the segment has the one rounding of `pointPos`: the integer parts agree. -/
theorem subPoint_error : |subPoint a sl L j - ((j * sl.n.toNat % L : Nat) : Rat) / L| ≤ 1 / 2 ^ 17 := by
  have hLpos : (0 : Rat) < L := by exact_mod_cast Nat.zero_lt_of_lt hj
  have hrange : |((j * sl.n.toNat : Nat) : Rat) / L| < 256 := by
    have hn := sl.n.isLt
    have hprod : j * sl.n.toNat < 256 * L := by nlinarith
    rw [abs_of_nonneg (by positivity), div_lt_iff₀ hLpos]
    exact_mod_cast hprod
  have hfloor : ⌊pointPos a sl L j⌋ = ⌊((j * sl.n.toNat : Nat) : Rat) / L⌋ := by
    rw [floor_pointPos a sl hL hj, Rat.floor_natCast_div_natCast]
    rfl
  rw [subPoint_eq_fract a sl hL hj, ← Int.fract_div_natCast_eq_div_natCast_mod, ← Int.self_sub_floor,
    ← Int.self_sub_floor, hfloor, sub_sub_sub_cancel_right, pointPos_eq a sl hL hj]
  exact fitD_error a hrange

/-- In both arithmetics the step is near that of EXACT: it has the error of `subPoint`, times the duration, and one
rounding of its own. -/
theorem placeStep_error :
    |placeStep a sl L j - ((j * sl.n.toNat % L : Nat) : Rat) / L * (sl.point (pointIdx a sl L j)).dur.toNat| ≤
      ((sl.point (pointIdx a sl L j)).dur.toNat + 1) / 2 ^ 17 := by
  have hsub := subPoint_error a sl hL hj
  obtain ⟨hsub0, hsub1⟩ := subPoint_bounds a sl hL hj
  have hdur : ((sl.point (pointIdx a sl L j)).dur.toNat : Rat) ≤ 255 := by
    exact_mod_cast Nat.le_of_lt_succ (sl.point (pointIdx a sl L j)).dur.isLt
  have hdur0 : (0 : Rat) ≤ (sl.point (pointIdx a sl L j)).dur.toNat := Nat.cast_nonneg _
  rw [placeStep_eq]
  generalize ((sl.point (pointIdx a sl L j)).dur.toNat : Rat) = d at hdur hdur0 ⊢
  generalize ((j * sl.n.toNat % L : Nat) : Rat) / L = f at hsub ⊢
  have hstep := fitD_error a (x := subPoint a sl L j * d) (by
    rw [abs_of_nonneg (mul_nonneg hsub0 hdur0)]
    linarith [mul_le_of_le_one_left hdur0 hsub1])
  have hprod : |subPoint a sl L j * d - f * d| ≤ d / 2 ^ 17 := by
    rw [← sub_mul, abs_mul, abs_of_nonneg hdur0]
    linarith [mul_le_mul_of_nonneg_right hsub hdur0]
  linarith [abs_sub_le (fitD a (subPoint a sl L j * d)) (subPoint a sl L j * d) (f * d)]

end

/-- How far from the line a placed channel may be (R109 item 1). -/
def placementBound : Arith → Rat
  | .exact => 1 / 2
  | .binary32 => 1

/-- Storing a color adds one half to the distance of its value from the line, which is 0 under EXACT. -/
theorem placedColor_error (a : Arith) (x y : U8) {dur : U8} (hdur : 1 ≤ dur.toNat) {f t : Rat} (hf0 : 0 ≤ f)
    (hf1 : f ≤ 1) (hexact : a = .exact → t = f * dur.toNat) (ht : |t - f * dur.toNat| ≤ (dur.toNat + 1) / 2 ^ 17) :
    |((colorU8 (placedValue a x y dur t)).toNat : Rat) - lineValue x y f| ≤ placementBound a := by
  obtain ⟨h0, h1⟩ := lineValue_bounds x y hf0 hf1
  have hcolor := abs_colorU8_sub_le (placedValue a x y dur t) h0 h1
  cases a with
  | exact =>
    rw [hexact rfl, placedValue_exact x y hdur, sub_self, abs_zero, add_zero] at hcolor
    rwa [hexact rfl, placedValue_exact x y hdur]
  | binary32 =>
    have hvalue := placedValue_error .binary32 x y hdur hf0 hf1 ht
    exact hcolor.trans (by rw [placementBound]; linarith)

/-- Settles O39, channel by channel, at the fraction `r/L` of the segment. -/
theorem placementWithinOneOfLine : Obligations.PlacementWithinOneOfLine := by
  unfold Obligations.PlacementWithinOneOfLine
  intro p sl L j _ h hready hj hL
  have hpos : 0 < L := Nat.zero_lt_of_lt hj
  have hLpos : (0 : Rat) < L := by exact_mod_cast hpos
  have hi : j * sl.n.toNat / L < sl.n.toNat := mul_div_lt_of_lt hj h.n_pos
  have hdur := h.dur_pos_of_ready hready hi
  have hfrac : ((j * sl.n.toNat % L : Nat) : Rat) / L ≤ 1 :=
    (div_le_one hLpos).mpr (by exact_mod_cast (Nat.mod_lt _ hpos).le)
  have hexact : p.arith = .exact → placeStep p.arith sl L j =
      ((j * sl.n.toNat % L : Nat) : Rat) / L * (sl.point (j * sl.n.toNat / L)).dur.toNat := fun harith => by
    rw [harith, placeStep_exact]
  have hstep := placeStep_error p.arith sl hL hj
  rw [pointIdx_eq p.arith sl hL hj] at hstep
  have hchannel := fun x y : U8 => placedColor_error p.arith x y hdur (by positivity) hfrac hexact hstep
  rw [h.placeLed_eq hready (pointIdx_eq p.arith sl hL hj) hi]
  exact ⟨hchannel _ _, hchannel _ _, hchannel _ _⟩

end Sys2Proof.Machine

/-! # Proofs about STEP (42_step.md) -/

namespace Sys2Proof.Machine

/-! ## The integer that STEP adds to a channel (42_step.md R126) -/

/-- A multiple of `2^-9` in the range of a color difference is in both arithmetics. -/
theorem fitD_div_two_pow_nine (a : Arith) {n : Int} (hn : n.natAbs < 2 ^ 24) :
    fitD a ((n : Rat) / 2 ^ 9) = (n : Rat) / 2 ^ 9 := by
  have hvalue : (n : Rat) * pow2 (-9) = (n : Rat) / 2 ^ 9 := by
    rw [pow2_eq_zpow]
    norm_num [div_eq_mul_inv]
  rw [← hvalue]
  exact fitD_intCast_mul_pow2 a (by norm_num) hn

/-- `x` is one of the values that ROUND takes to `k`, and at least `2^-9` below those that it takes to `k + 1`. Both
bounds are in the format. -/
structure RoundsTo (x : Rat) (k : Int) : Prop where
  ge : (k : Rat) - 1 / 2 ≤ x
  le : x ≤ k + 1 / 2 - 1 / 2 ^ 9

section
variable {x : Rat} {k : Int} (h : RoundsTo x k)
include h

theorem RoundsTo.roundD_eq : roundD x = k := by
  obtain ⟨hge, hle⟩ := h
  rw [roundD, floorD_eq, Int.floor_eq_iff]
  constructor <;> linarith

theorem RoundsTo.natCast_add (n : Nat) : RoundsTo (n + x) (n + k) := by
  obtain ⟨hge, hle⟩ := h
  constructor <;> push_cast <;> linarith

/-- The roundings of an arithmetic are monotone and fix both bounds, so they do not change what ROUND gives. -/
theorem RoundsTo.of_fitD (a : Arith) (hk : k.natAbs < 2 ^ 14) : RoundsTo (fitD a x) k := by
  obtain ⟨hge, hle⟩ := h
  have hlo := fitD_div_two_pow_nine a (n := 512 * k - 256) (by omega)
  have hhi := fitD_div_two_pow_nine a (n := 512 * k + 255) (by omega)
  have hlo_eq : ((512 * k - 256 : Int) : Rat) / 2 ^ 9 = k - 1 / 2 := by push_cast; ring
  have hhi_eq : ((512 * k + 255 : Int) : Rat) / 2 ^ 9 = k + 1 / 2 - 1 / 2 ^ 9 := by push_cast; ring
  rw [hlo_eq] at hlo
  rw [hhi_eq] at hhi
  have hk0 : -(2 : Rat) ^ 14 < k := by exact_mod_cast (by omega : -2 ^ 14 < k)
  have hk1 : (k : Rat) < 2 ^ 14 := by exact_mod_cast (by omega : k < 2 ^ 14)
  have hrange : ∀ y : Rat, (k : Rat) - 1 / 2 ≤ y → y ≤ k + 1 / 2 - 1 / 2 ^ 9 → |y| ≤ 2 ^ 24 := fun y h0 h1 => by
    rw [abs_le]
    constructor <;> linarith
  have hx := hrange x hge hle
  constructor
  · calc (k : Rat) - 1 / 2 = fitD a (k - 1 / 2) := hlo.symm
      _ ≤ fitD a x := fitD_mono (hrange _ le_rfl (hge.trans hle)) hx a hge
  · calc fitD a x ≤ fitD a (k + 1 / 2 - 1 / 2 ^ 9) := fitD_mono hx (hrange _ (hge.trans hle) le_rfl) a hle
      _ = k + 1 / 2 - 1 / 2 ^ 9 := hhi

end

/-- A quotient by a `u8` is a multiple of `1/d`, so it stays `2^-9` below the next value at which ROUND changes. -/
theorem roundsTo_div (z : Int) {d : Nat} (hd : 1 ≤ d) (hd' : d ≤ 255) :
    RoundsTo ((z : Rat) / d) (roundD ((z : Rat) / d)) := by
  have hdpos : (0 : Rat) < d := by exact_mod_cast hd
  have hd255 : (d : Rat) ≤ 255 := by exact_mod_cast hd'
  have hfloor := Int.lt_floor_add_one ((z : Rat) / d + 1 / 2)
  have hfloor_le := Int.floor_le ((z : Rat) / d + 1 / 2)
  rw [roundD, floorD_eq]
  generalize ⌊(z : Rat) / d + 1 / 2⌋ = k at *
  have hlt : (2 * z + d : Rat) < 2 * d * (k + 1) := by
    calc (2 * z + d : Rat) = 2 * d * (z / d + 1 / 2) := by field_simp
      _ < 2 * d * (k + 1) := by gcongr
  have hle : (2 * z + d + 1 : Rat) ≤ 2 * d * (k + 1) := by
    have hlt' : 2 * z + d < 2 * d * (k + 1) := by exact_mod_cast hlt
    exact_mod_cast hlt'
  constructor
  · linarith
  · rw [div_le_iff₀ hdpos]
    linarith

theorem natAbs_roundD_le {x : Rat} {n : Nat} (h : |x| ≤ n) : (roundD x).natAbs ≤ n := by
  obtain ⟨hlo, hhi⟩ := abs_le.mp h
  have hlo' := roundD_mono hlo
  have hhi' := roundD_mono hhi
  rw [show -(n : Rat) = ((-n : Int) : Rat) by push_cast; rfl, roundD_intCast] at hlo'
  rw [show (n : Rat) = ((n : Int) : Rat) from rfl, roundD_intCast] at hhi'
  omega

/-- The two roundings of a candidate color, of the delta and of the sum, do not change what ROUND gives. -/
theorem roundD_addD_deltaChannel (a : Arith) (c cur next : U8) {dur : U8} (hdur : 1 ≤ dur.toNat) :
    roundD (addD a (toD a (c.toNat : Int)) (deltaChannel a cur next dur)) =
      c.toNat + roundD (((next.toNat : Rat) - cur.toNat) / dur.toNat) := by
  have hc := c.isLt
  have hdelta := roundsTo_div ((next.toNat : Int) - cur.toNat) hdur (Nat.le_of_lt_succ dur.isLt)
  have hsmall : (roundD (((next.toNat : Rat) - cur.toNat) / dur.toNat)).natAbs ≤ 255 :=
    natAbs_roundD_le (abs_sub_div_dur_le cur next hdur)
  push_cast at hdelta
  rw [deltaChannel_eq, toD_natCast a (by omega), addD]
  exact (((hdelta.of_fitD a (by omega)).natCast_add c.toNat).of_fitD a (by omega)).roundD_eq

/-- The integer delta law, in both arithmetics. -/
theorem stepChannel_deltaChannel_toNat (a : Arith) (c cur next : U8) {dur : U8} (hdur : dur ≠ 0) :
    ((stepChannel a c (deltaChannel a cur next dur)).toNat : Int) =
      max 0 (min 255 ((c.toNat : Int) + ⌊((next.toNat : Rat) - cur.toNat) / dur.toNat + 1 / 2⌋)) := by
  have hpos : 1 ≤ dur.toNat := Nat.one_le_iff_ne_zero.mpr fun he => hdur (BitVec.eq_of_toNat_eq he)
  rw [stepChannel, colorU8_toNat, roundD_clampD, roundD_addD_deltaChannel a c cur next hpos]
  rfl

/-- Settles O43, by the law in both arithmetics. -/
theorem integerDeltaLawExact : Obligations.IntegerDeltaLawExact := by
  unfold Obligations.IntegerDeltaLawExact
  exact fun c cur next _ hdur => stepChannel_deltaChannel_toNat .exact c cur next hdur

/-- Settles O44, by the law in both arithmetics. -/
theorem integerDeltaLawBinary32 : Obligations.IntegerDeltaLawBinary32 := by
  unfold Obligations.IntegerDeltaLawBinary32
  exact fun c cur next _ hdur => stepChannel_deltaChannel_toNat .binary32 c cur next hdur

/-! ## One LED under STEP (42_step.md R122 to R124) -/

/-- The LED just snapped to segment `i`: at its start, with its point's color (R124). -/
def segmentStart (sl : Slot) (i : Nat) : Led :=
  { r := (sl.point i).r, g := (sl.point i).g, b := (sl.point i).b, idx := BitVec.ofNat 8 i, sc := 0 }

theorem snapLed_eq (sl : Slot) (l : Led) : snapLed sl l = segmentStart sl (nextSegment sl l.idx) := rfl

/-- Storing a segment of the slot as u8 loses nothing. -/
theorem toNat_ofNat_segment {sl : Slot} {i : Nat} (hi : i < sl.n.toNat) : (BitVec.ofNat 8 i).toNat = i := by
  have hn := sl.n.isLt
  rw [BitVec.toNat_ofNat, Nat.mod_eq_of_lt (by omega)]

theorem segmentStart_idx {sl : Slot} {i : Nat} (hi : i < sl.n.toNat) : (segmentStart sl i).idx.toNat = i :=
  toNat_ofNat_segment hi

section
variable {sl : Slot} {l : Led}

theorem stepLed_of_boundary (a : Arith) (h : (sl.point l.idx.toNat).dur.toNat ≤ l.sc.toNat + 1) :
    stepLed a sl l = segmentStart sl (nextSegment sl l.idx) := by
  rw [stepLed, atBoundary, if_pos (decide_eq_true h), snapLed_eq]

theorem stepLed_of_inside (a : Arith) (h : l.sc.toNat + 1 < (sl.point l.idx.toNat).dur.toNat) :
    stepLed a sl l = advanceLed a sl l := by
  rw [stepLed, atBoundary, if_neg (by simpa using h)]

/-- Within a segment the step count does not wrap. -/
theorem advanceLed_sc (a : Arith) (h : l.sc.toNat + 1 < (sl.point l.idx.toNat).dur.toNat) :
    (advanceLed a sl l).sc.toNat = l.sc.toNat + 1 := by
  have hdur := (sl.point l.idx.toNat).dur.isLt
  exact toNat_add_one_of_lt (by omega)

theorem nextSegment_lt (h : l.idx.toNat < sl.n.toNat) : nextSegment sl l.idx < sl.n.toNat :=
  Nat.mod_lt _ (by omega)

end

/-! ## STEP on the state (42_step.md R120, R121) -/

section
variable {s : State}

theorem exec_step_of_none (hactive : s.active = activeNone) : exec .step s = .next (s.respond .notReady 0) := by
  rw [exec, execStep, if_pos hactive, s.raiseError_eq_respond rfl]

theorem exec_step_of_stale (hactive : s.active ≠ activeNone)
    (hstale : ∃ k < s.leds.length, (s.slot s.active.toNat).n.toNat ≤ (s.led k).idx.toNat) :
    exec .step s = .next (s.raiseError .stalePhase) := by
  rw [exec, execStep, if_neg hactive, if_pos ((anyStale_iff _ s).mpr hstale)]

theorem exec_step_of_fresh (hactive : s.active ≠ activeNone)
    (hfresh : ∀ k < s.leds.length, (s.led k).idx.toNat < (s.slot s.active.toNat).n.toNat) :
    exec .step s =
      .next ((s.setLeds (s.leds.map (stepLed s.params.arith (s.slot s.active.toNat)))).respond .ok 0) := by
  have hnone : ¬ anyStale (s.slot s.active.toNat) s.leds = true := fun h => by
    obtain ⟨k, hk, hstale⟩ := (anyStale_iff _ s).mp h
    exact not_lt.mpr hstale (hfresh k hk)
  rw [exec, execStep, if_neg hactive, if_neg hnone]

/-- STEP on one entry of the LED memory (R120). -/
theorem State.setLeds_map_stepLed_led (s : State) (a : Arith) (sl : Slot) {k : Nat} (hk : k < s.leds.length) :
    (s.setLeds (s.leds.map (stepLed a sl))).led k = stepLed a sl (s.led k) :=
  getD_map_stepLed a sl s.leds hk

end

/-- Settles O23: the two refusals, then STEP of every LED by the boundary test. -/
theorem stepResult : Obligations.StepResult := by
  unfold Obligations.StepResult
  refine ⟨fun w => decodeWord_eq_ok_iff_eq_encode rfl, fun s hnone => ?_, fun s hinv hactive hstale => ?_,
    fun s hinv hactive hfresh => ?_⟩
  · rw [exec_step_of_none hnone]
    rfl
  · rw [← hinv.led_count] at hstale
    rw [exec_step_of_stale hactive hstale]
    rfl
  · rw [← hinv.led_count] at hfresh ⊢
    refine ⟨_, exec_step_of_fresh hactive hfresh, rfl, List.length_map _, fun k hk => ?_⟩
    rw [State.respond_led, s.setLeds_map_stepLed_led _ _ hk]
    dsimp only
    split
    · next hboundary => exact stepLed_of_boundary _ (by omega)
    · next hinside => exact stepLed_of_inside _ (by omega)

/-! ## The cycle of phases (42_step.md R127) -/

section
variable {sl : Slot}

theorem durationsBefore_succ (sl : Slot) (i : Nat) :
    durationsBefore sl (i + 1) = durationsBefore sl i + (sl.point i).dur.toNat := by
  simp [durationsBefore, List.range_succ]

theorem durationsBefore_mono (sl : Slot) : Monotone (durationsBefore sl) :=
  monotone_nat_of_le_succ fun i => by rw [durationsBefore_succ]; exact Nat.le_add_right _ _

/-- The phases of a segment come before the starts of the later ones. -/
theorem cyclePosition_lt {l : Led} {j : Nat} (h : PhaseInRange sl l) (hj : l.idx.toNat < j) :
    cyclePosition sl l < durationsBefore sl j := by
  calc cyclePosition sl l < durationsBefore sl (l.idx.toNat + 1) := by
        rw [durationsBefore_succ, cyclePosition]
        exact Nat.add_lt_add_left h.2 _
    _ ≤ durationsBefore sl j := durationsBefore_mono sl hj

theorem cyclePosition_lt_cycleLength {l : Led} (h : PhaseInRange sl l) : cyclePosition sl l < cycleLength sl :=
  cyclePosition_lt h h.1

/-- Different phases have different places. -/
theorem cyclePosition_inj {l m : Led} (hl : PhaseInRange sl l) (hm : PhaseInRange sl m)
    (h : cyclePosition sl l = cyclePosition sl m) : l.idx = m.idx ∧ l.sc = m.sc := by
  have hstart : ∀ x : Led, durationsBefore sl x.idx.toNat ≤ cyclePosition sl x := fun _ => Nat.le_add_right _ _
  have hidx : l.idx.toNat = m.idx.toNat := by
    rcases Nat.lt_trichotomy l.idx.toNat m.idx.toNat with hlt | heq | hgt
    · have := cyclePosition_lt hl hlt
      have := hstart m
      omega
    · exact heq
    · have := cyclePosition_lt hm hgt
      have := hstart l
      omega
  rw [cyclePosition, cyclePosition, hidx] at h
  exact ⟨BitVec.eq_of_toNat_eq hidx, BitVec.eq_of_toNat_eq (by omega)⟩

section
variable (hdur : ∀ i < sl.n.toNat, 1 ≤ (sl.point i).dur.toNat)
include hdur

theorem segmentStart_inRange {i : Nat} (hi : i < sl.n.toNat) : PhaseInRange sl (segmentStart sl i) := by
  rw [PhaseInRange, segmentStart_idx hi]
  exact ⟨hi, hdur i hi⟩

theorem stepLed_inRange (a : Arith) {l : Led} (h : PhaseInRange sl l) : PhaseInRange sl (stepLed a sl l) := by
  rcases le_or_gt (sl.point l.idx.toNat).dur.toNat (l.sc.toNat + 1) with hboundary | hinside
  · rw [stepLed_of_boundary a hboundary]
    exact segmentStart_inRange hdur (nextSegment_lt h.1)
  · rw [stepLed_of_inside a hinside, PhaseInRange, advanceLed_sc a hinside]
    exact ⟨h.1, hinside⟩

/-- The end of a segment is one place before the start of the next, and the end of the last one place before the
end of the cycle. -/
theorem cyclePosition_stepLed (a : Arith) {l : Led} (h : PhaseInRange sl l) :
    cyclePosition sl (stepLed a sl l) = (cyclePosition sl l + 1) % cycleLength sl := by
  obtain ⟨hidx, hsc⟩ := h
  have hnext := cyclePosition_lt_cycleLength (stepLed_inRange hdur a ⟨hidx, hsc⟩)
  rcases le_or_gt (sl.point l.idx.toNat).dur.toNat (l.sc.toNat + 1) with hboundary | hinside
  · have hend : cyclePosition sl l + 1 = durationsBefore sl (l.idx.toNat + 1) := by
      rw [durationsBefore_succ, cyclePosition]
      omega
    have hstart : cyclePosition sl (stepLed a sl l) = durationsBefore sl (nextSegment sl l.idx) := by
      rw [stepLed_of_boundary a hboundary, cyclePosition, segmentStart_idx (nextSegment_lt hidx)]
      rfl
    rcases lt_or_eq_of_le (show l.idx.toNat + 1 ≤ sl.n.toNat from hidx) with hmore | hlast
    · have hseg : nextSegment sl l.idx = l.idx.toNat + 1 := Nat.mod_eq_of_lt hmore
      rw [hstart, hseg, ← hend] at hnext ⊢
      exact (Nat.mod_eq_of_lt hnext).symm
    · have hseg : nextSegment sl l.idx = 0 := by rw [nextSegment, hlast, Nat.mod_self]
      rw [hstart, hseg, hend, hlast, cycleLength, Nat.mod_self]
      rfl
  · have hpos : cyclePosition sl (stepLed a sl l) = cyclePosition sl l + 1 := by
      rw [stepLed_of_inside a hinside, cyclePosition, advanceLed_sc a hinside]
      rfl
    rw [hpos] at hnext ⊢
    exact (Nat.mod_eq_of_lt hnext).symm

end

end

/-- Settles O46, from the place of a phase under STEP; a step count past the duration is at a boundary too. -/
theorem stepIsOneCycleStep : Obligations.StepIsOneCycleStep := by
  unfold Obligations.StepIsOneCycleStep
  intro a sl hdur
  refine ⟨fun l h => ⟨stepLed_inRange hdur a h, cyclePosition_lt_cycleLength h, cyclePosition_stepLed hdur a h⟩,
    fun l m => cyclePosition_inj, fun l hidx hsc => ?_⟩
  rw [stepLed_of_boundary a (by omega)]
  exact ⟨segmentStart_idx (nextSegment_lt hidx), rfl⟩

/-! ## A full cycle (42_step.md R129) -/

section
variable {sl : Slot} (hdur : ∀ i < sl.n.toNat, 1 ≤ (sl.point i).dur.toNat) (a : Arith) {l : Led}
  (h : PhaseInRange sl l)
include h

/-- STEP gives step count 0 only by a snap. -/
theorem stepLed_eq_segmentStart (hsc : (stepLed a sl l).sc = 0) :
    stepLed a sl l = segmentStart sl (stepLed a sl l).idx.toNat := by
  rcases le_or_gt (sl.point l.idx.toNat).dur.toNat (l.sc.toNat + 1) with hboundary | hinside
  · rw [stepLed_of_boundary a hboundary, segmentStart_idx (nextSegment_lt h.1)]
  · rw [stepLed_of_inside a hinside] at hsc
    have hsucc := advanceLed_sc a hinside
    rw [hsc] at hsucc
    exact absurd hsucc (Nat.succ_ne_zero _).symm

include hdur

theorem iterate_stepLed_inRange (k : Nat) : PhaseInRange sl ((stepLed a sl)^[k] l) := by
  induction k with
  | zero => exact h
  | succ k ih =>
    rw [Function.iterate_succ_apply']
    exact stepLed_inRange hdur a ih

theorem cyclePosition_iterate_stepLed (k : Nat) :
    cyclePosition sl ((stepLed a sl)^[k] l) = (cyclePosition sl l + k) % cycleLength sl := by
  induction k with
  | zero => exact (Nat.mod_eq_of_lt (cyclePosition_lt_cycleLength h)).symm
  | succ k ih =>
    rw [Function.iterate_succ_apply', cyclePosition_stepLed hdur a (iterate_stepLed_inRange hdur a h k), ih,
      Nat.mod_add_mod, Nat.add_assoc]

/-- A cycle returns the phase. -/
theorem iterate_stepLed_cycleLength_phase :
    ((stepLed a sl)^[cycleLength sl] l).idx = l.idx ∧ ((stepLed a sl)^[cycleLength sl] l).sc = l.sc := by
  refine cyclePosition_inj (iterate_stepLed_inRange hdur a h _) h ?_
  rw [cyclePosition_iterate_stepLed hdur a h, Nat.add_mod_right,
    Nat.mod_eq_of_lt (cyclePosition_lt_cycleLength h)]

/-- A cycle returns an LED at a segment's start with its point's color: the last STEP of the cycle snaps. -/
theorem iterate_stepLed_cycleLength_start (hsc : l.sc = 0) :
    (stepLed a sl)^[cycleLength sl] l = segmentStart sl l.idx.toNat := by
  obtain ⟨hidx', hsc'⟩ := iterate_stepLed_cycleLength_phase hdur a h
  obtain ⟨d, hd⟩ := Nat.exists_eq_add_one.mpr (Nat.zero_lt_of_lt (cyclePosition_lt_cycleLength h))
  rw [hd, Function.iterate_succ_apply'] at hidx' hsc' ⊢
  rw [stepLed_eq_segmentStart a (iterate_stepLed_inRange hdur a h d) (hsc'.trans hsc), hidx']

end

/-- STEPs one after another on phases in range: none is refused, and every LED steps each time. -/
theorem runInstrs_replicate_step (k : Nat) : ∀ {s : State}, s.active ≠ activeNone →
    (∀ i < (s.slot s.active.toNat).n.toNat, 1 ≤ ((s.slot s.active.toNat).point i).dur.toNat) →
    (∀ j < s.leds.length, PhaseInRange (s.slot s.active.toNat) (s.led j)) →
    ∃ t, runInstrs (List.replicate k .step) s = .next t ∧
      ∀ j < s.leds.length, t.led j = (stepLed s.params.arith (s.slot s.active.toNat))^[k] (s.led j) := by
  induction k with
  | zero => exact fun _ _ _ => ⟨_, rfl, fun _ _ => rfl⟩
  | succ k ih =>
    intro s hactive hdur hrange
    have hexec := exec_step_of_fresh hactive fun j hj => (hrange j hj).1
    set u := (s.setLeds (s.leds.map (stepLed s.params.arith (s.slot s.active.toNat)))).respond .ok 0
    have hlen : u.leds.length = s.leds.length := List.length_map _
    have hled : ∀ j < s.leds.length, u.led j = stepLed s.params.arith (s.slot s.active.toNat) (s.led j) :=
      fun j hj => s.setLeds_map_stepLed_led _ _ hj
    obtain ⟨t, hrun, ht⟩ := ih (s := u) hactive hdur fun j hj => by
      rw [hlen] at hj
      rw [hled j hj]
      exact stepLed_inRange hdur _ (hrange j hj)
    refine ⟨t, ?_, fun j hj => ?_⟩
    · rw [List.replicate_succ, runInstrs_cons_of_next hexec, hrun]
    · rw [ht j (hlen ▸ hj), hled j hj, Function.iterate_succ_apply]
      rfl

/-- Settles O47, LED by LED, with the durations of the active slot from the invariant. -/
theorem fullCycleReturnsStrip : Obligations.FullCycleReturnsStrip := by
  unfold Obligations.FullCycleReturnsStrip
  intro s hinv hactive hrange
  obtain ⟨hslot, hready⟩ := hinv.active_ready.resolve_left hactive
  have hdur : ∀ i < (s.slot s.active.toNat).n.toNat, 1 ≤ ((s.slot s.active.toNat).point i).dur.toNat :=
    fun i => (hinv.slot_loaded _ hslot).dur_pos_of_ready hready
  rw [← hinv.led_count] at hrange ⊢
  obtain ⟨t, hrun, ht⟩ := runInstrs_replicate_step (cycleLength (s.slot s.active.toNat)) hactive hdur hrange
  refine ⟨t, hrun, fun k hk => ?_⟩
  obtain ⟨hidx, hsc⟩ := iterate_stepLed_cycleLength_phase hdur s.params.arith (hrange k hk)
  rw [ht k hk]
  refine ⟨hidx, hsc, fun hzero => ?_⟩
  rw [iterate_stepLed_cycleLength_start hdur _ (hrange k hk) hzero]
  exact ⟨rfl, rfl, rfl⟩

/-! ## The color as a function of the phase (42_step.md R129) -/

/-- An integer saturated to a channel. -/
def saturateU8 (z : Int) : U8 := BitVec.ofInt 8 (max 0 (min 255 z))

theorem saturateU8_toNat (z : Int) : ((saturateU8 z).toNat : Int) = max 0 (min 255 z) := by
  rw [saturateU8, BitVec.toNat_ofInt]
  omega

theorem saturateU8_natCast_toNat (c : U8) : saturateU8 c.toNat = c := by
  have hc := c.isLt
  have hsat := saturateU8_toNat c.toNat
  exact BitVec.eq_of_toNat_eq (by omega)

/-- Under EXACT a candidate color is the channel plus the rounded delta, saturated (R126). -/
theorem stepChannel_exact (c : U8) (d : D) : stepChannel .exact c d = saturateU8 (c.toNat + roundD d) := by
  have hround : roundD ((c.toNat : Rat) + d) = c.toNat + roundD d := by
    rw [roundD, roundD, floorD_eq, floorD_eq, add_assoc, Int.floor_natCast_add]
  rw [stepChannel, addD, toD, fitD_exact, fitD_exact, Int.cast_natCast, colorU8, roundD_clampD, hround, saturateU8]

/-- Saturating at each of `t + 1` additions of one integer is saturating once: they all move the same way. -/
theorem saturateU8_add_mul (c : U8) (t : Nat) (n : Int) :
    saturateU8 ((saturateU8 (c.toNat + t * n)).toNat + n) = saturateU8 (c.toNat + (t + 1 : Nat) * n) := by
  have hc := c.isLt
  have hsplit : ((t + 1 : Nat) : Int) * n = t * n + n := by push_cast; ring
  have hsign : 0 ≤ n ∧ 0 ≤ t * n ∨ n ≤ 0 ∧ t * n ≤ 0 := (le_total 0 n).imp
    (fun h => ⟨h, mul_nonneg (Int.natCast_nonneg t) h⟩)
    (fun h => ⟨h, mul_nonpos_of_nonneg_of_nonpos (Int.natCast_nonneg t) h⟩)
  have hclamp : max 0 (min 255 ((saturateU8 (c.toNat + t * n)).toNat + n)) =
      max 0 (min 255 (c.toNat + (t + 1 : Nat) * n)) := by
    rw [saturateU8_toNat, hsplit]
    omega
  rw [saturateU8, hclamp, saturateU8]

/-- The LED at phase `(i, t)`, `t` STEPs after the snap to segment `i` (R129). -/
def phaseLed (sl : Slot) (i t : Nat) : Led :=
  { r := saturateU8 ((sl.point i).r.toNat + t * roundD (sl.segDelta i).dr)
    g := saturateU8 ((sl.point i).g.toNat + t * roundD (sl.segDelta i).dg)
    b := saturateU8 ((sl.point i).b.toNat + t * roundD (sl.segDelta i).db)
    idx := BitVec.ofNat 8 i
    sc := BitVec.ofNat 8 t }

theorem phaseLed_zero (sl : Slot) (i : Nat) : phaseLed sl i 0 = segmentStart sl i := by
  simp only [phaseLed, Nat.cast_zero, zero_mul, add_zero, saturateU8_natCast_toNat]
  rfl

section
variable {sl : Slot} {i : Nat} (t : Nat) (hi : i < sl.n.toNat)
include hi

theorem advanceLed_phaseLed : advanceLed .exact sl (phaseLed sl i t) = phaseLed sl i (t + 1) := by
  simp only [advanceLed, phaseLed, stepChannel_exact, toNat_ofNat_segment hi, saturateU8_add_mul, BitVec.ofNat_add]
  rfl

theorem phaseLed_dur : (sl.point (phaseLed sl i t).idx.toNat).dur = (sl.point i).dur := by
  rw [phaseLed, toNat_ofNat_segment hi]

end

theorem phaseLed_sc {sl : Slot} {i t : Nat} (ht : t < (sl.point i).dur.toNat) : (phaseLed sl i t).sc.toNat = t := by
  have hdur := (sl.point i).dur.isLt
  rw [phaseLed, BitVec.toNat_ofNat, Nat.mod_eq_of_lt (by omega)]

theorem iterate_stepLed_segmentStart {sl : Slot} {i t : Nat} (hi : i < sl.n.toNat)
    (ht : t < (sl.point i).dur.toNat) : (stepLed .exact sl)^[t] (segmentStart sl i) = phaseLed sl i t := by
  induction t with
  | zero => exact (phaseLed_zero sl i).symm
  | succ t ih =>
    have ht' : t < (sl.point i).dur.toNat := by omega
    have hinside : (phaseLed sl i t).sc.toNat + 1 < (sl.point (phaseLed sl i t).idx.toNat).dur.toNat := by
      rwa [phaseLed_sc ht', phaseLed_dur t hi]
    rw [Function.iterate_succ_apply', ih ht', stepLed_of_inside .exact hinside, advanceLed_phaseLed t hi]

/-- Settles O48: the LED is `phaseLed`, by induction on the step count, and at the last one it is at the boundary. -/
theorem colorIsFunctionOfPhase : Obligations.ColorIsFunctionOfPhase := by
  unfold Obligations.ColorIsFunctionOfPhase
  intro p sl i t _ _ _ _ hi ht
  have hled := iterate_stepLed_segmentStart hi ht
  refine ⟨hled, fun hlast => ?_⟩
  have hboundary : (sl.point (phaseLed sl i t).idx.toNat).dur.toNat ≤ (phaseLed sl i t).sc.toNat + 1 := by
    rw [phaseLed_sc ht, phaseLed_dur t hi, hlast]
  have hseg : nextSegment sl (phaseLed sl i t).idx = (i + 1) % sl.n.toNat := by
    rw [nextSegment, phaseLed, toNat_ofNat_segment hi]
  refine (congrArg (stepLed .exact sl) hled).trans ?_
  rw [stepLed_of_boundary .exact hboundary, hseg]
  rfl

/-! ## One control point (42_step.md R130) -/

/-- A delta of 0 leaves a channel. -/
theorem stepChannel_zero (a : Arith) (c : U8) : stepChannel a c 0 = c := by
  have hc := c.isLt
  rw [stepChannel, addD, add_zero, toD_natCast a (by omega), fitD_natCast a (by omega), colorU8_toNat_cast]

theorem nextSegment_of_n_eq_one {sl : Slot} (hn : sl.n = 1) (i : U8) : nextSegment sl i = 0 := by
  simp [nextSegment, hn, Nat.mod_one]

/-- Settles O49: the one segment goes from its point to itself, so a snap gives the LED its own color and segment, and
an advance adds the delta 0. -/
theorem onePointGradientConstant : Obligations.OnePointGradientConstant := by
  unfold Obligations.OnePointGradientConstant
  rintro p sl ⟨r, g, b, idx, sc⟩ - h hready hn rfl rfl rfl rfl
  split
  · next hboundary =>
    rw [stepLed_of_boundary p.arith hboundary, nextSegment_of_n_eq_one hn]
    rfl
  · next hinside =>
    have hdelta : sl.segDelta 0 = { dr := 0, dg := 0, db := 0 } := by
      rw [h.deltas hready 0 h.n_pos, segmentDelta_of_n_eq_one p.arith hn]
    rw [stepLed_of_inside p.arith (not_le.mp hinside), advanceLed]
    simp only [BitVec.ofNat_eq_ofNat, BitVec.toNat_ofNat, Nat.zero_mod, hdelta, stepChannel_zero]

end Sys2Proof.Machine

/-! # Proofs about the readout commands (43_readout.md) -/

namespace Sys2Proof

/-! ## The words of the reads (30_encoding.md R65, R76) -/

/-- The bits of format L around `CH` are two fields of zeros. -/
theorem encode_readLed (k : U16) (ch : BitVec 2) :
    encode (.readLed k ch) = (0x05#8 ++ 0x00#8 ++ k ++ 0#6 ++ ch ++ 0#24 : CmdWord) := by
  apply BitVec.eq_of_toNat_eq
  simp only [encode, packFields, BitVec.toNat_append, BitVec.ofNat_eq_ofNat, BitVec.toNat_ofNat, Nat.zero_mod,
    Nat.or_zero, Nat.zero_shiftLeft, Nat.zero_or, Nat.shiftLeft_or_distrib, ← Nat.shiftLeft_add]
  rfl

/-- The four unused bytes of format Q are one field of zeros. -/
theorem encode_readPhase (k : U16) : encode (.readPhase k) = (0x06#8 ++ 0x00#8 ++ k ++ 0#32 : CmdWord) := by
  apply BitVec.eq_of_toNat_eq
  simp only [encode, packFields, BitVec.toNat_append, BitVec.ofNat_eq_ofNat, BitVec.toNat_ofNat, Nat.zero_mod,
    Nat.or_zero, ← Nat.shiftLeft_add]
  rfl

theorem readLed_wellFormed_iff (k : U16) (ch : BitVec 2) : (Instr.readLed k ch).wellFormed = true ↔ ch ≠ 3 := by
  simp [Instr.wellFormed, channelSelects]

end Sys2Proof

namespace Sys2Proof.Machine

/-! ## NOP (43_readout.md R146) -/

/-- Settles O14: NOP only responds, and each command has one word. -/
theorem nopResult : Obligations.NopResult := by
  unfold Obligations.NopResult
  exact ⟨fun s => rfl, fun w => decodeWord_eq_ok_iff_eq_encode rfl⟩

/-! ## The data of a response (30_encoding.md R66, R67) -/

/-- A response of three data bytes, field by field. -/
theorem rspWord_ok_dataBytes (hi mid lo : U8) :
    rspWord .ok (dataBytes hi mid lo) = (0x00#8 ++ hi ++ mid ++ lo : RspWord) := by
  apply BitVec.eq_of_toNat_eq
  simp only [rspWord, dataBytes, statusCode, BitVec.toNat_append, Nat.shiftLeft_or_distrib, ← Nat.shiftLeft_add,
    Nat.or_assoc]
  rfl

/-- A zero-extended byte is the lowest of the three data bytes. -/
theorem data8_eq_dataBytes (v : U8) : data8 v = dataBytes 0 0 v := by
  revert v
  decide

/-! ## READ_STATUS (43_readout.md R144) -/

/-- FAULT with its reserved bits 0 is read as stored (10_state.md R32). -/
theorem faultRead_of_reserved {f : U8} (h : f &&& 0xFC = 0) : faultRead f = f := by
  revert f
  decide

theorem exec_readStatus (s : State) : exec .readStatus s =
    .next { s with
      hostOut := s.hostOut ++ [(0x00#8 ++ s.used ++ s.active ++ faultRead s.fault : RspWord)] } := by
  rw [← rspWord_ok_dataBytes]
  rfl

/-- Settles O15: the response is the three registers, with FAULT as `faultRead` gives it. -/
theorem readStatusResult : Obligations.ReadStatusResult := by
  unfold Obligations.ReadStatusResult
  refine ⟨fun s hreserved => ?_, exec_readStatus, fun p => ?_,
    fun w => decodeWord_eq_ok_iff_eq_encode rfl⟩
  · rw [exec_readStatus, faultRead_of_reserved hreserved]
  · rw [exec_readStatus, State.resetWith_used, State.resetWith_active, State.resetWith_fault]
    rfl

/-! ## ACTIVE once a slot is active (43_readout.md R140) -/

/-- No allocated slot has the index NONE. -/
theorem ne_activeNone_of_lt_used {s : State} {sl : U8} (hslot : sl.toNat < s.used.toNat) : sl ≠ activeNone := by
  rintro rfl
  have hused := s.used.isLt
  have hnone : activeNone.toNat = 255 := rfl
  omega

theorem exec_keeps_active_ne_none {i : Instr} {s t : State} (h : exec i s = .next t)
    (hactive : s.active ≠ activeNone) : t.active ≠ activeNone := by
  cases exec_effect h with
  | refused | answered | allocated | stored | stepped => exact hactive
  | completed sl r g b dur hslot => exact ne_activeNone_of_lt_used hslot
  | started sl hslot => exact ne_activeNone_of_lt_used hslot

theorem command_keeps_active_ne_none {s t : State} {w : CmdWord} {rest : List HostEvent}
    (hin : s.hostIn = .command w :: rest) (h : step s = .next t) (hactive : s.active ≠ activeNone) :
    t.active ≠ activeNone := by
  cases hd : decodeWord w with
  | ok i =>
    rw [step_of_command hin hd] at h
    exact exec_keeps_active_ne_none h hactive
  | error e =>
    rw [step_of_illegal hin hd] at h
    obtain rfl : s.popHost.raiseError .illegalCommand = t := by simpa using h
    exact hactive

/-! ## READ_LED (43_readout.md R140) -/

/-- The channel that a legal selector names (30_encoding.md R74). -/
theorem channelOf_of_ne_three {ch : BitVec 2} (hch : ch ≠ 3) (l : Led) :
    channelOf ch l = some (if ch = 0 then l.r else if ch = 1 then l.g else l.b) := by
  have hcases : ch = 0 ∨ ch = 1 ∨ ch = 2 := by revert ch; decide
  rcases hcases with rfl | rfl | rfl <;> rfl

section
variable {s : State} {k : U16} {ch : BitVec 2}

theorem exec_readLed_of_out_of_range (hch : ch ≠ 3) (hk : s.params.numLeds ≤ k.toNat) :
    exec (.readLed k ch) s = .next (s.respond .indexOutOfRange 0) := by
  simp only [exec, execReadLed, channelOf_of_ne_three hch]
  rw [if_pos ((ledOutOfRange_iff s k).mpr hk), s.raiseError_eq_respond rfl]

theorem exec_readLed_of_none (hch : ch ≠ 3) (hk : k.toNat < s.params.numLeds) (hactive : s.active = activeNone) :
    exec (.readLed k ch) s = .next (s.respond .notReady 0) := by
  simp only [exec, execReadLed, channelOf_of_ne_three hch]
  rw [if_neg (mt (ledOutOfRange_iff s k).mp hk.not_ge), if_pos hactive, s.raiseError_eq_respond rfl]

theorem exec_readLed_of_active (hch : ch ≠ 3) (hk : k.toNat < s.params.numLeds) (hactive : s.active ≠ activeNone) :
    exec (.readLed k ch) s = .next (s.respond .ok (data8
      (if ch = 0 then (s.led k.toNat).r else if ch = 1 then (s.led k.toNat).g else (s.led k.toNat).b))) := by
  simp only [exec, execReadLed, channelOf_of_ne_three hch]
  rw [if_neg (mt (ledOutOfRange_iff s k).mp hk.not_ge), if_neg hactive]

end

/-- Settles O16: the word, ACTIVE under every command word, then the checks of READ_LED in their order. -/
theorem readLedResult : Obligations.ReadLedResult := by
  unfold Obligations.ReadLedResult
  refine ⟨fun w k ch => ?_, fun s t w rest => command_keeps_active_ne_none,
    fun s k ch hch => ⟨fun hk => ?_, fun hk hactive => ?_, fun hk hactive => ?_⟩⟩
  · rw [← encode_readLed, ← readLed_wellFormed_iff k]
    constructor
    · intro h
      have hwf := wellFormed_of_decodeWord h
      exact ⟨hwf, (decodeWord_eq_ok_iff_eq_encode hwf).mp h⟩
    · rintro ⟨hwf, rfl⟩
      exact decodeWord_encode hwf
  · rw [exec_readLed_of_out_of_range hch hk]
    rfl
  · rw [exec_readLed_of_none hch hk hactive]
    rfl
  · rw [exec_readLed_of_active hch hk hactive, State.respond, data8_eq_dataBytes, rspWord_ok_dataBytes]
    rfl

/-! ## READ_PHASE (43_readout.md R142) -/

section
variable {s : State} {k : U16}

theorem exec_readPhase_of_out_of_range (hk : s.params.numLeds ≤ k.toNat) :
    exec (.readPhase k) s = .next (s.respond .indexOutOfRange 0) := by
  rw [exec, execReadPhase, if_pos ((ledOutOfRange_iff s k).mpr hk), s.raiseError_eq_respond rfl]

theorem exec_readPhase_of_none (hk : k.toNat < s.params.numLeds) (hactive : s.active = activeNone) :
    exec (.readPhase k) s = .next (s.respond .notReady 0) := by
  rw [exec, execReadPhase, if_neg (mt (ledOutOfRange_iff s k).mp hk.not_ge), if_pos hactive,
    s.raiseError_eq_respond rfl]

theorem exec_readPhase_of_active (hk : k.toNat < s.params.numLeds) (hactive : s.active ≠ activeNone) :
    exec (.readPhase k) s =
      .next (s.respond .ok (dataBytes 0 (s.led k.toNat).idx (s.led k.toNat).sc)) := by
  rw [exec, execReadPhase, if_neg (mt (ledOutOfRange_iff s k).mp hk.not_ge), if_neg hactive]

end

/-- Settles O17: the word, then the checks of READ_PHASE in their order. -/
theorem readPhaseResult : Obligations.ReadPhaseResult := by
  unfold Obligations.ReadPhaseResult
  refine ⟨fun w k => ?_, fun s k => ⟨fun hk => ?_, fun hk hactive => ?_, fun hk hactive => ?_⟩⟩
  · rw [decodeWord_eq_ok_iff_eq_encode rfl, encode_readPhase]
  · rw [exec_readPhase_of_out_of_range hk]
    rfl
  · rw [exec_readPhase_of_none hk hactive]
    rfl
  · rw [exec_readPhase_of_active hk hactive, State.respond, rspWord_ok_dataBytes]
    rfl

/-! ## FAULT read as 0 after a run of commands (43_readout.md R145) -/

theorem faultRead_or (f b : U8) : faultRead (f ||| b) = faultRead f ||| faultRead b := by
  ext i hi
  simp [faultRead, Bool.and_or_distrib_right]

/-- FAULT reads as 0 after a status exactly when it did before and the status sets neither of its bits. -/
theorem faultRead_faultAfter_eq_zero_iff (st : Status) (f : U8) : faultRead (faultAfter st f) = 0 ↔
    faultRead f = 0 ∧ st ≠ .illegalCommand ∧ st ≠ .stalePhase := by
  have hbit : faultRead (faultBitOf st) = 0 ↔ st ≠ .illegalCommand ∧ st ≠ .stalePhase := by
    cases st <;> decide
  rw [← hbit, faultAfter, faultRead_or]
  exact BitVec.or_eq_zero_iff

/-- An accepted word after which FAULT reads as 0 left it so and was answered by neither of its two codes. -/
theorem step_of_word_faultRead {s : State} {w : CmdWord} {rest : List HostEvent}
    (hin : s.hostIn = .command w :: rest) :
    ∃ t r, step s = .next t ∧ t.hostIn = rest ∧ t.hostOut = s.hostOut ++ [r] ∧
      (faultRead t.fault = 0 → faultRead s.fault = 0 ∧ rspStatus r ≠ 0x06 ∧ rspStatus r ≠ 0x07) := by
  obtain ⟨t, -, -, hstep, hrest, -⟩ := step_of_word hin
  obtain ⟨st, d, hout, hfault, -⟩ := command_response hin hstep
  refine ⟨t, rspWord st d, hstep, hrest, hout, fun hclear => ?_⟩
  rw [hfault, faultRead_faultAfter_eq_zero_iff] at hclear
  obtain ⟨hbefore, hillegal, hstale⟩ := hclear
  rw [rspStatus_rspWord]
  exact ⟨hbefore, mt (statusCode_inj (y := .illegalCommand)).mp hillegal,
    mt (statusCode_inj (y := .stalePhase)).mp hstale⟩

theorem run_succ_of_step {s t : State} (h : step s = .next t) (k : Nat) :
    Host.Core.run core (k + 1) s = Host.Core.run core k t := by
  have hcore : core.step s = .next t := h
  simp only [Host.Core.run, hcore]

/-- Clear FAULT goes back from the end of a run to its start, past the response of every word. -/
theorem run_of_words_faultRead (k : Nat) : ∀ s : State, k ≤ s.hostIn.length →
    (∀ e ∈ s.hostIn, ∃ w, e = .command w) →
    ∃ t : State, Host.Core.run core k s = .next t ∧
      ∃ rs : List RspWord, t.hostOut = s.hostOut ++ rs ∧ rs.length = k ∧
        (faultRead t.fault = 0 → faultRead s.fault = 0 ∧ ∀ r ∈ rs, rspStatus r ≠ 0x06 ∧ rspStatus r ≠ 0x07) := by
  induction k with
  | zero => exact fun s _ _ => ⟨s, rfl, [], (List.append_nil _).symm, rfl, fun h => ⟨h, nofun⟩⟩
  | succ k ih =>
    intro s hlen hwords
    cases hin : s.hostIn with
    | nil => simp [hin] at hlen
    | cons e rest =>
      rw [hin] at hlen hwords
      obtain ⟨⟨w, rfl⟩, hrest_words⟩ := List.forall_mem_cons.mp hwords
      obtain ⟨u, r, hstep, rfl, hout, hclear⟩ := step_of_word_faultRead hin
      obtain ⟨t, hrun, rs, houts, hcount, hclears⟩ := ih u (Nat.le_of_succ_le_succ hlen) hrest_words
      refine ⟨t, (run_succ_of_step hstep k).trans hrun, r :: rs, ?_, congrArg Nat.succ hcount, fun h => ?_⟩
      · rw [houts, hout, List.append_assoc, List.singleton_append]
      · obtain ⟨hu, hrs⟩ := hclears h
        obtain ⟨hs, hr⟩ := hclear hu
        exact ⟨hs, List.forall_mem_cons.mpr ⟨hr, hrs⟩⟩

/-- Settles O56: FAULT read as 0 after the run read as 0 after each of its words. -/
theorem clearFaultMeansNoRefusal : Obligations.ClearFaultMeansNoRefusal := by
  unfold Obligations.ClearFaultMeansNoRefusal
  intro k s hlen hwords
  obtain ⟨t, hrun, rs, hout, hcount, hclear⟩ := run_of_words_faultRead k s hlen hwords
  exact ⟨t, hrun, rs, hout, hcount, fun h => (hclear h).2⟩

end Sys2Proof.Machine

/-! # Proofs about errors and the idle block (60_exceptions.md) -/

namespace Sys2Proof.Machine

/-! ## The idle block (60_exceptions.md R169) -/

/-- Settles O11: a step with an empty queue is the first case of `step`. -/
theorem idleStepHoldsState : Obligations.IdleStepHoldsState := by
  unfold Obligations.IdleStepHoldsState
  intro s hidle
  simp only [step, hidle]

/-! ## The refusals of each command (60_exceptions.md R156) -/

/-- The errors that a command can end with, by opcode, in the order of its checks. -/
def refusals : Op → List Status
  | .nop => []
  | .addGradient => [.invalidConfig, .capacityExceeded]
  | .appendCp => [.indexOutOfRange, .capacityExceeded, .invalidDuration]
  | .startGradient => [.indexOutOfRange, .notReady]
  | .step => [.notReady, .stalePhase]
  | .readLed => [.indexOutOfRange, .notReady]
  | .readPhase => [.indexOutOfRange, .notReady]
  | .readStatus => []

/-- The response is OK, or the command raised one of its errors and did nothing else. -/
def OkOrRefused (op : Op) (s t : State) : Prop :=
  (∃ d, t.hostOut = s.hostOut ++ [rspWord .ok d]) ∨ ∃ st ∈ refusals op, t = s.raiseError st

theorem OkOrRefused.ok {op : Op} {s t : State} (d : RspData) (h : t.hostOut = s.hostOut ++ [rspWord .ok d]) :
    OkOrRefused op s t := .inl ⟨d, h⟩

theorem OkOrRefused.refused {op : Op} {st : Status} (s : State) (h : st ∈ refusals op) :
    OkOrRefused op s (s.raiseError st) := .inr ⟨st, h, rfl⟩

theorem exec_okOrRefused {i : Instr} {s t : State} (hwf : i.wellFormed = true) (h : exec i s = .next t) :
    OkOrRefused i.op s t := by
  cases i with
  | nop =>
    obtain rfl : s.respond .ok 0 = t := by simpa [exec, execNop] using h
    exact .ok _ rfl
  | addGradient n w =>
    rcases execAddGradient_cases h with ⟨-, rfl⟩ | ⟨-, -, rfl⟩ | ⟨-, -, rfl⟩
    · exact .refused s (op := .addGradient) (by decide)
    · exact .refused s (op := .addGradient) (by decide)
    · exact .ok _ rfl
  | appendCp sl r g b dur =>
    rcases execAppendCp_cases h with ⟨-, rfl⟩ | ⟨-, -, rfl⟩ | ⟨-, -, -, rfl⟩ | ⟨-, -, -, rfl⟩
    · exact .refused s (op := .appendCp) (by decide)
    · exact .refused s (op := .appendCp) (by decide)
    · exact .refused s (op := .appendCp) (by decide)
    · exact .ok 0 (by simp)
  | startGradient sl =>
    rcases execStartGradient_cases h with ⟨-, rfl⟩ | ⟨-, -, rfl⟩ | ⟨-, -, rfl⟩
    · exact .refused s (op := .startGradient) (by decide)
    · exact .refused s (op := .startGradient) (by decide)
    · exact .ok _ rfl
  | step =>
    rcases execStep_cases h with ⟨-, rfl⟩ | ⟨-, -, rfl⟩ | ⟨-, -, rfl⟩
    · exact .refused s (op := .step) (by decide)
    · exact .refused s (op := .step) (by decide)
    · exact .ok _ rfl
  | readLed k ch =>
    rcases execReadLed_cases h with ⟨hch, -⟩ | ⟨v, -, ⟨-, rfl⟩ | ⟨-, -, rfl⟩ | ⟨-, -, rfl⟩⟩
    · rw [channelOf_eq_none_iff] at hch
      exact absurd hwf (ne_true_of_eq_false hch)
    · exact .refused s (op := .readLed) (by decide)
    · exact .refused s (op := .readLed) (by decide)
    · exact .ok _ rfl
  | readPhase k =>
    rcases execReadPhase_cases h with ⟨-, rfl⟩ | ⟨-, -, rfl⟩ | ⟨-, -, rfl⟩
    · exact .refused s (op := .readPhase) (by decide)
    · exact .refused s (op := .readPhase) (by decide)
    · exact .ok _ rfl
  | readStatus =>
    obtain rfl : s.respond .ok (dataBytes s.used s.active (faultRead s.fault)) = t := by
      simpa [exec, execReadStatus] using h
    exact .ok _ rfl

/-! ## A command that ends with an error (60_exceptions.md R158) -/

/-- The next state of an error, with the FAULT bit read from the code. -/
theorem State.raiseError_eq (s : State) (st : Status) : s.raiseError st =
    { s with
      hostOut := s.hostOut ++ [rspWord st 0]
      fault := s.fault ||| (if statusCode st = 0x07 then 0x01 else if statusCode st = 0x06 then 0x02 else 0) } := by
  rw [← faultAfter_eq]
  rfl

/-- An accepted word, legal or not, is answered OK or raises an error and does nothing else. -/
theorem step_of_word_ok_or_error {s : State} {w : CmdWord} {rest : List HostEvent}
    (hin : s.hostIn = .command w :: rest) :
    ∃ t, step s = .next t ∧
      ((∃ d, t.hostOut = s.hostOut ++ [rspWord .ok d]) ∨ ∃ st, t = s.popHost.raiseError st) := by
  cases hd : decodeWord w with
  | error e => exact ⟨_, step_of_illegal hin hd, .inr ⟨_, rfl⟩⟩
  | ok i =>
    obtain ⟨t, ht⟩ := exec_isNext i s.popHost
    refine ⟨t, (step_of_command hin hd).trans ht, ?_⟩
    rcases exec_okOrRefused (wellFormed_of_decodeWord hd) ht with hok | ⟨st, -, herr⟩
    · exact .inl hok
    · exact .inr ⟨st, herr⟩

/-- Settles O24: a response that is not OK comes from `raiseError`. -/
theorem errorsChangeOnlyFaultBits : Obligations.ErrorsChangeOnlyFaultBits := by
  unfold Obligations.ErrorsChangeOnlyFaultBits
  intro s w rest hin
  obtain ⟨t, hstep, ⟨d, hout⟩ | ⟨st, rfl⟩⟩ := step_of_word_ok_or_error hin
  · exact ⟨t, _, hstep, hout, fun herr => absurd (rspStatus_rspWord .ok d) herr⟩
  · refine ⟨_, rspWord st 0, hstep, rfl, fun _ => ⟨rspData_rspWord st 0, ?_⟩⟩
    rw [State.raiseError_eq, State.popHost_of_hostIn hin, rspStatus_rspWord]

/-! ## Runs from reset that reach each refusal (60_exceptions.md R156) -/

theorem runInstrs_isNext (is : List Instr) : ∀ s : State, ∃ t, runInstrs is s = .next t := by
  induction is with
  | nil => exact fun s => ⟨s, rfl⟩
  | cons i is ih =>
    intro s
    obtain ⟨u, hu⟩ := exec_isNext i s
    obtain ⟨t, ht⟩ := ih u
    exact ⟨t, (runInstrs_cons_of_next hu is).trans ht⟩

/-- The reset state with five LEDs, which waves of width 2 do not tile (41_activation.md R104). -/
def fiveLeds : State := State.resetWith { numLeds := 5, maxPoints := 2, maxGradients := 2, arith := .exact }

/-- The state that a list of commands leads to from `fiveLeds`. -/
def afterRun (is : List Instr) : State :=
  match runInstrs is fiveLeds with
  | .next t => t
  | .fault _ => fiveLeds
  | .refused _ => fiveLeds

theorem runInstrs_fiveLeds (is : List Instr) : runInstrs is fiveLeds = .next (afterRun is) := by
  obtain ⟨t, ht⟩ := runInstrs_isNext is fiveLeds
  rw [afterRun, ht]

/-- Two points on the whole strip, then one point on blocks of width 2: LED 4 keeps index 1 (42_step.md R121). -/
def narrowAfterWide : List Instr :=
  [.addGradient 2 5, .addGradient 1 2, .appendCp 0 255 0 0 5, .appendCp 0 0 0 255 5, .appendCp 1 200 100 50 3]

/-- After the commands `is` some command of `op` is answered with the code of `st`. -/
def RefusedAfter (is : List Instr) (op : Op) (st : Status) : Prop :=
  ∃ i s t, runInstrs is fiveLeds = .next s ∧ i.op = op ∧ i.wellFormed = true ∧ exec i s = .next t ∧
    t.hostOut = s.hostOut ++ [rspWord st 0]

theorem RefusedAfter.of_exec {is : List Instr} {t : State} {st : Status} (i : Instr) (hwf : i.wellFormed = true)
    (h : exec i (afterRun is) = .next t) (hout : t.hostOut = (afterRun is).hostOut ++ [rspWord st 0]) :
    RefusedAfter is i.op st :=
  ⟨i, afterRun is, t, runInstrs_fiveLeds is, rfl, hwf, h, hout⟩

/-- Each refusal occurs in a run from reset. -/
theorem refusal_occurs {op : Op} {st : Status} (h : st ∈ refusals op) : ∃ is, RefusedAfter is op st := by
  cases op with
  | nop | readStatus => nomatch h
  | addGradient =>
    obtain rfl | rfl : st = .invalidConfig ∨ st = .capacityExceeded := by simpa [refusals] using h
    · exact ⟨[], .of_exec (.addGradient 0 1) rfl (exec_addGradient_of_invalid (by decide)) rfl⟩
    · exact ⟨[.addGradient 1 1, .addGradient 1 1],
        .of_exec (.addGradient 1 1) rfl (exec_addGradient_of_full (by decide) (by decide)) rfl⟩
  | appendCp =>
    obtain rfl | rfl | rfl : st = .indexOutOfRange ∨ st = .capacityExceeded ∨ st = .invalidDuration := by
      simpa [refusals] using h
    · exact ⟨[], .of_exec (.appendCp 0 0 0 0 1) rfl (exec_appendCp_of_unallocated (by decide)) rfl⟩
    · exact ⟨[.addGradient 1 1, .appendCp 0 0 0 0 1],
        .of_exec (.appendCp 0 0 0 0 1) rfl (exec_appendCp_of_full (by decide) (by decide)) rfl⟩
    · exact ⟨[.addGradient 1 1],
        .of_exec (.appendCp 0 0 0 0 0) rfl (exec_appendCp_of_dur_zero (by decide) (by decide)) rfl⟩
  | startGradient =>
    obtain rfl | rfl : st = .indexOutOfRange ∨ st = .notReady := by simpa [refusals] using h
    · exact ⟨[], .of_exec (.startGradient 0) rfl (exec_startGradient_of_unallocated (by decide)) rfl⟩
    · exact ⟨[.addGradient 1 1],
        .of_exec (.startGradient 0) rfl (exec_startGradient_of_not_ready (by decide) (by decide)) rfl⟩
  | step =>
    obtain rfl | rfl : st = .notReady ∨ st = .stalePhase := by simpa [refusals] using h
    · exact ⟨[], .of_exec .step rfl (exec_step_of_none rfl) rfl⟩
    · exact ⟨narrowAfterWide,
        .of_exec .step rfl (exec_step_of_stale (by decide +kernel) ⟨4, by decide +kernel⟩) rfl⟩
  | readLed =>
    obtain rfl | rfl : st = .indexOutOfRange ∨ st = .notReady := by simpa [refusals] using h
    · exact ⟨[], .of_exec (.readLed 5 0) rfl (exec_readLed_of_out_of_range (by decide) (by decide)) rfl⟩
    · exact ⟨[], .of_exec (.readLed 4 0) rfl (exec_readLed_of_none (by decide) (by decide) rfl) rfl⟩
  | readPhase =>
    obtain rfl | rfl : st = .indexOutOfRange ∨ st = .notReady := by simpa [refusals] using h
    · exact ⟨[], .of_exec (.readPhase 5) rfl (exec_readPhase_of_out_of_range (by decide)) rfl⟩
    · exact ⟨[], .of_exec (.readPhase 4) rfl (exec_readPhase_of_none (by decide) rfl) rfl⟩

/-! ## The error codes of each command (60_exceptions.md R156) -/

/-- A command that answers an error code answers one of its opcode's refusals. -/
theorem rspStatus_mem_refusals {i : Instr} {s t : State} {r : RspWord} (hwf : i.wellFormed = true)
    (h : exec i s = .next t) (hout : t.hostOut = s.hostOut ++ [r]) (herr : rspStatus r ≠ 0) :
    rspStatus r ∈ (refusals i.op).map statusCode := by
  rcases exec_okOrRefused hwf h with ⟨d, hok⟩ | ⟨st, hst, rfl⟩
  · obtain rfl : rspWord .ok d = r := by simpa [hok] using hout
    exact absurd (rspStatus_rspWord .ok d) herr
  · obtain rfl : rspWord st 0 = r := by simpa using hout
    rw [rspStatus_rspWord]
    exact List.mem_map_of_mem hst

/-- Settles O25: no code but the refusals' can be answered, and a run from reset reaches each of them. -/
theorem errorCodesPerCommand : Obligations.ErrorCodesPerCommand := by
  unfold Obligations.ErrorCodesPerCommand
  intro codes
  have hcodes (op : Op) : (refusals op).map statusCode = codes op := by cases op <;> rfl
  refine ⟨fun op c hc => ⟨?_, fun hmem => ?_⟩, fun s t w rest e hin hd h => ?_⟩
  · rintro ⟨i, s, t, r, rfl, hwf, h, hout, rfl⟩
    exact hcodes i.op ▸ rspStatus_mem_refusals hwf h hout hc
  · rw [← hcodes, List.mem_map] at hmem
    obtain ⟨st, hst, rfl⟩ := hmem
    obtain ⟨-, i, s, t, -, hop, hwf, h, hout⟩ := refusal_occurs hst
    exact ⟨i, s, t, _, hop, hwf, h, hout, rspStatus_rspWord st 0⟩
  · rw [step_of_illegal hin hd] at h
    obtain rfl : s.popHost.raiseError .illegalCommand = t := by simpa using h
    exact ⟨_, rfl, rspStatus_rspWord .illegalCommand 0⟩

end Sys2Proof.Machine

/-! # Proofs about hazards (70_reset_and_hazards.md) -/

namespace Sys2Proof.Machine

/-! ## Stale LEDs (42_step.md R121) -/

/-- No LED is stale for the slot: every `idx` is one of its segments. -/
def State.FreshFor (s : State) (sl : Slot) : Prop := ∀ k < s.params.numLeds, (s.led k).idx.toNat < sl.n.toNat

/-- No LED is stale for the active slot, if there is one. -/
def State.NoStale (s : State) : Prop := s.active ≠ activeNone → s.FreshFor (s.slot s.active.toNat)

/-- No LED that the placement of the slot leaves alone is stale for it. -/
def State.TrailingFreshFor (s : State) (sl : Slot) : Prop :=
  ∀ k < s.params.numLeds, placedLeds s.params sl ≤ k → (s.led k).idx.toNat < sl.n.toNat

theorem State.FreshFor.trailing {s : State} {sl : Slot} (h : s.FreshFor sl) : s.TrailingFreshFor sl :=
  fun k hk _ => h k hk

/-- A slot without trailing LEDs places every LED (41_activation.md R104). -/
theorem State.trailingFreshFor_of_no_trailing {s : State} {sl : Slot}
    (h : s.params.numLeds % numWaves s.params sl = 0) : s.TrailingFreshFor sl := by
  intro k hk htrailing
  rw [← numLeds_sub_placedLeds] at h
  omega

/-- A STEP on LEDs none of which is stale answers OK. -/
theorem exec_step_ok {s : State} (hinv : s.Inv) (hactive : s.active ≠ activeNone)
    (hfresh : s.FreshFor (s.slot s.active.toNat)) :
    ∃ t, exec .step s = .next t ∧ t.hostOut = s.hostOut ++ [0x00000000] :=
  ⟨_, exec_step_of_fresh hactive (hinv.led_count ▸ hfresh), rfl⟩

/-! ## What keeps LEDs from being stale -/

theorem placeLed_idx_lt (a : Arith) {sl : Slot} {L j : Nat} (hL : L ≤ 65535) (hj : j < L) (hn : 1 ≤ sl.n.toNat) :
    (placeLed a sl L j).idx.toNat < sl.n.toNat := by
  have hlt : pointIdx a sl L j < sl.n.toNat := by
    rw [pointIdx_eq a sl hL hj]
    exact mul_div_lt_of_lt hj hn
  rwa [placeLed_idx hlt]

theorem stepLed_idx_lt (a : Arith) {sl : Slot} {l : Led} (h : l.idx.toNat < sl.n.toNat) :
    (stepLed a sl l).idx.toNat < sl.n.toNat := by
  rcases le_or_gt (sl.point l.idx.toNat).dur.toNat (l.sc.toNat + 1) with hboundary | hinside
  · rw [stepLed_of_boundary a hboundary, segmentStart_idx (nextSegment_lt h)]
    exact nextSegment_lt h
  · rw [stepLed_of_inside a hinside]
    exact h

/-- ACTIVATE leaves stale LEDs only among the trailing ones. -/
theorem State.TrailingFreshFor.activate {s : State} {sl : U8} (h : s.TrailingFreshFor (s.slot sl.toNat))
    (hlen : s.leds.length = s.params.numLeds) (hleds : s.params.numLeds ≤ 65535)
    (hn : 1 ≤ (s.slot sl.toNat).n.toNat) : (s.activate sl).FreshFor (s.slot sl.toNat) := by
  intro k hk
  rcases lt_or_ge k (placedLeds s.params (s.slot sl.toNat)) with hplaced | htrailing
  · have hpos : 0 < ledsPerWave s.params (s.slot sl.toNat) :=
      Nat.pos_of_mul_pos_left (Nat.zero_lt_of_lt hplaced)
    rw [State.activate_led, if_pos ⟨hplaced, hlen ▸ hk⟩]
    exact placeLed_idx_lt _ ((Nat.div_le_self _ _).trans hleds) (Nat.mod_lt k hpos) hn
  · rw [s.activate_led_trailing sl htrailing]
    exact h k hk htrailing

/-- The active slot has a point. -/
theorem State.Inv.active_n_pos {s : State} (h : s.Inv) (hactive : s.active ≠ activeNone) :
    1 ≤ (s.slot s.active.toNat).n.toNat :=
  (h.slot_loaded _ (h.active_ready.resolve_left hactive).1).n_pos

/-- After a command an LED can be stale only for a slot that the command activated, and only if it is one of that
slot's trailing LEDs. -/
theorem exec_freshFor {i : Instr} {s t : State} (hinv : s.Inv) (hs : s.NoStale) (h : exec i s = .next t)
    (hactive : t.active ≠ activeNone) (htrailing : s.TrailingFreshFor (t.slot t.active.toNat)) :
    t.FreshFor (t.slot t.active.toNat) := by
  have hn := (exec_keeps_inv hinv h).active_n_pos hactive
  obtain ⟨⟨-, hleds⟩, -, -⟩ := hinv.legal
  cases exec_effect h with
  | refused | answered => exact hs hactive
  | allocated | stored =>
    have hkept := exec_keeps_ready_slot hinv h (hinv.active_ready.resolve_left hactive).2
    have hfresh := hs hactive
    rw [← hkept] at hfresh
    exact hfresh
  | completed sl => exact State.TrailingFreshFor.activate (s := s.setSlot sl.toNat _) htrailing hinv.led_count hleds hn
  | started sl => exact htrailing.activate hinv.led_count hleds hn
  | stepped =>
    intro k hk
    rw [State.respond_led, s.setLeds_map_stepLed_led _ _ (hinv.led_count ▸ hk)]
    exact stepLed_idx_lt _ (hs hactive k hk)

theorem step_params {s t : State} (h : step s = .next t) : t.params = s.params := by
  rcases step_cases h with ⟨-, rfl⟩ | ⟨w, rest, i, -, -, he⟩ | ⟨w, rest, e, -, -, rfl⟩ |
    ⟨e, rest, -, -, rfl⟩
  · rfl
  · exact exec_params (s := s.popHost) he
  · rfl
  · rfl

/-- The same of every step: after a reset no slot is active. -/
theorem step_freshFor {s t : State} (hinv : s.Inv) (hs : s.NoStale) (h : step s = .next t)
    (hactive : t.active ≠ activeNone) (htrailing : s.TrailingFreshFor (t.slot t.active.toNat)) :
    t.FreshFor (t.slot t.active.toNat) := by
  rcases step_cases h with ⟨-, rfl⟩ | ⟨w, rest, i, -, -, he⟩ | ⟨w, rest, e, -, -, rfl⟩ |
    ⟨e, rest, -, -, rfl⟩
  · exact hs hactive
  · exact exec_freshFor hinv.popHost hs he hactive htrailing
  · exact hs hactive
  · exact absurd rfl hactive

/-! ## Slots without trailing LEDs (70_reset_and_hazards.md R181 (a)) -/

/-- Settles O59: a slot without trailing LEDs leaves none to be stale. -/
theorem phasesInRangeKeptWithoutTrailingLeds : Obligations.PhasesInRangeKeptWithoutTrailingLeds := by
  unfold Obligations.PhasesInRangeKeptWithoutTrailingLeds
  intro s t hinv hs h hwhole hactive
  have hparams := step_params h
  have hfresh := step_freshFor hinv hs h hactive
    (State.trailingFreshFor_of_no_trailing (hparams ▸ hwhole hactive))
  exact ⟨hfresh, exec_step_ok (invKeptByStep s t hinv h) hactive hfresh⟩

/-- Every allocated slot's wave width divides the number of LEDs. -/
def State.WavesTile (s : State) : Prop := ∀ i < s.used.toNat, (s.slot i).w.toNat ∣ s.params.numLeds

theorem State.WavesTile.no_trailing {s : State} (h : s.WavesTile) {i : Nat} (hi : i < s.used.toNat) :
    s.params.numLeds % numWaves s.params (s.slot i) = 0 :=
  Nat.mod_eq_zero_of_dvd (Nat.div_dvd_of_dvd (h i hi))

/-- A command keeps an allocated slot allocated, with its wave width. -/
theorem exec_keeps_w {i : Instr} {s t : State} {j : Nat} (hinv : s.Inv) (h : exec i s = .next t)
    (hj : j < s.used.toNat) : j < t.used.toNat ∧ (t.slot j).w = (s.slot j).w := by
  cases exec_effect h with
  | refused | answered | started | stepped => exact ⟨hj, rfl⟩
  | allocated n w hconfig hfree =>
    obtain ⟨-, -, -, hmax⟩ := hinv.legal
    have hused := hinv.used_le
    have hsucc := toNat_add_one_of_lt (v := s.used) (by omega)
    obtain ⟨hother, -⟩ := execAddGradient_slots h
    refine ⟨?_, by rw [hother j hj.ne]⟩
    rw [State.respond_used, State.setUsed_used, hsucc]
    omega
  | stored sl | completed sl =>
    obtain ⟨hother, -, hw⟩ := execAppendCp_slots h
    refine ⟨hj, ?_⟩
    by_cases hjsl : j = sl.toNat
    · rw [hjsl, hw]
    · rw [hother j hjsl]

/-- What tiles after a step tiled before it, unless the step was a reset. -/
theorem State.WavesTile.of_step {s t : State} (hinv : s.Inv) (h : step s = .next t) (hactive : t.active ≠ activeNone)
    (htile : t.WavesTile) : s.WavesTile := by
  rcases step_cases h with ⟨-, rfl⟩ | ⟨w, rest, i, -, -, he⟩ | ⟨w, rest, e, -, -, rfl⟩ |
    ⟨e, rest, -, -, rfl⟩
  · exact htile
  · intro j hj
    obtain ⟨hj', hw⟩ := exec_keeps_w hinv.popHost he hj
    have hdvd := htile j hj'
    rwa [hw, exec_params he] at hdvd
  · exact htile
  · exact absurd rfl hactive

/-- No LED of a run is stale while the slots allocated since the last reset tile. -/
theorem Reachable.noStale {p : Params} {s : State} (hp : p.Legal) (h : Reachable p s) (htile : s.WavesTile) :
    s.NoStale := by
  induction h with
  | reset => exact absurd rfl
  | present s e _ ih => exact ih htile
  | step s t hreach hs ih =>
    intro hactive
    have hinv := hreach.inv hp
    have hslot := (invKeptByStep s t hinv hs).active_ready.resolve_left hactive
    exact (phasesInRangeKeptWithoutTrailingLeds s t hinv (ih (htile.of_step hinv hs hactive)) hs
      (fun _ => htile.no_trailing hslot.1) hactive).1

/-- Settles O53, by induction on the run. -/
theorem noStalePhaseWhenWavesTile : Obligations.NoStalePhaseWhenWavesTile := by
  unfold Obligations.NoStalePhaseWhenWavesTile
  intro p s hp h htile hactive
  have hfresh := h.noStale hp htile hactive
  exact ⟨hfresh, exec_step_ok (h.inv hp) hactive hfresh⟩

/-! ## Point counts that grow (70_reset_and_hazards.md R181 (b)) -/

/-- A command after which no slot is active has written no LED. -/
theorem exec_led_of_active_none {i : Instr} {s t : State} (h : exec i s = .next t) (hnone : t.active = activeNone)
    (k : Nat) : t.led k = s.led k := by
  cases exec_effect h with
  | refused | answered | allocated | stored => rfl
  | completed sl r g b dur hslot => exact absurd hnone (ne_activeNone_of_lt_used hslot)
  | started sl hslot => exact absurd hnone (ne_activeNone_of_lt_used hslot)
  | stepped hactive => exact absurd hnone hactive

theorem command_led_of_active_none {s t : State} {w : CmdWord} {rest : List HostEvent}
    (hin : s.hostIn = .command w :: rest) (h : step s = .next t) (hnone : t.active = activeNone) (k : Nat) :
    t.led k = s.led k := by
  cases hd : decodeWord w with
  | ok i =>
    rw [step_of_command hin hd] at h
    exact exec_led_of_active_none h hnone k
  | error e =>
    rw [step_of_illegal hin hd] at h
    obtain rfl : s.popHost.raiseError .illegalCommand = t := by simpa using h
    rfl

/-- No LED is stale for a slot with at least as many points as the active one, nor for any slot with points before
a first slot is active. -/
theorem State.NoStale.freshFor_of_le {s : State} {sl : Slot} (h : s.NoStale)
    (hzero : s.active = activeNone → ∀ k < s.params.numLeds, (s.led k).idx = 0) (hn : 1 ≤ sl.n.toNat)
    (hgrow : s.active ≠ activeNone → (s.slot s.active.toNat).n.toNat ≤ sl.n.toNat) : s.FreshFor sl := by
  intro k hk
  by_cases hactive : s.active = activeNone
  · rw [hzero hactive k hk]
    exact hn
  · exact (h hactive k hk).trans_le (hgrow hactive)

/-- Settles O54: before the step no LED is stale for the slot that is active after it. -/
theorem noStalePhaseWhenPointCountsGrow : Obligations.NoStalePhaseWhenPointCountsGrow := by
  unfold Obligations.NoStalePhaseWhenPointCountsGrow
  intro s t w rest hinv hzero hs hin h hgrow
  have hinv' := invKeptByStep s t hinv h
  have hfresh (hactive : t.active ≠ activeNone) : t.FreshFor (t.slot t.active.toNat) :=
    step_freshFor hinv hs h hactive
      (State.NoStale.freshFor_of_le hs hzero (hinv'.active_n_pos hactive) hgrow).trailing
  refine ⟨fun hnone k hk => ?_, hfresh, fun hactive => exec_step_ok hinv' hactive (hfresh hactive)⟩
  have hnone' : s.active = activeNone := not_not.mp fun hactive => command_keeps_active_ne_none hin h hactive hnone
  rw [step_params h] at hk
  rw [command_led_of_active_none hin h hnone]
  exact hzero hnone' k hk

/-! ## Slow segments (70_reset_and_hazards.md R183) -/

/-- When the integer that STEP adds to a channel reaches `k` (42_step.md R126). -/
theorem le_floor_div_add_half_iff (z k : Int) {d : Nat} (hd : 1 ≤ d) :
    k ≤ ⌊(z : Rat) / d + 1 / 2⌋ ↔ d * (2 * k - 1) ≤ 2 * z := by
  have hpos : (0 : Rat) < d := by exact_mod_cast hd
  calc k ≤ ⌊(z : Rat) / d + 1 / 2⌋ ↔ ((k : Rat) - 1 / 2) * d ≤ z := by
        rw [Int.le_floor, ← sub_le_iff_le_add, le_div_iff₀ hpos]
    _ ↔ (d * (2 * k - 1) : Rat) ≤ 2 * z := by constructor <;> intro h <;> linarith
    _ ↔ d * (2 * k - 1) ≤ 2 * z := by exact_mod_cast Iff.rfl

/-- Settles O45: the integer that STEP adds is at least 0 exactly when `-dur ≤ 2·diff`, and at least 1 exactly when
`dur ≤ 2·diff`. -/
theorem slowSegmentHoldsColor : Obligations.SlowSegmentHoldsColor := by
  unfold Obligations.SlowSegmentHoldsColor
  intro a c cur next dur hdur diff
  have hpos : 1 ≤ dur.toNat := Nat.one_le_iff_ne_zero.mpr fun he => hdur (BitVec.eq_of_toNat_eq he)
  have hlaw := stepChannel_deltaChannel_toNat a c cur next hdur
  have hcast : (next.toNat : Rat) - cur.toNat = (diff : Int) := by simp [diff]
  rw [hcast] at hlaw
  have hzero := le_floor_div_add_half_iff diff 0 hpos
  have hone := le_floor_div_add_half_iff diff 1 hpos
  have hc := c.isLt
  refine ⟨fun hslow => BitVec.eq_of_toNat_eq ?_, fun hup hmax => ?_, fun hdown hmin => ?_⟩
  · rw [← abs_two, ← abs_mul, abs_lt] at hslow
    omega
  · have hmax' : c.toNat ≠ 255 := fun he => hmax (BitVec.eq_of_toNat_eq he)
    omega
  · have hmin' : c.toNat ≠ 0 := fun he => hmin (BitVec.eq_of_toNat_eq he)
    omega

end Sys2Proof.Machine

/-! # Proofs about safety and abandoned commands (60_exceptions.md R159, R162) -/

namespace Sys2Proof.Machine

theorem SafeStep.of_no_response {s t : State} (h : step s = .next t) (hout : t.hostOut = s.hostOut) : SafeStep s :=
  ⟨t, h, [], by simpa using hout, by simp, by simp⟩

/-- Settles O13, by the head of the queue: an idle step and a reset send nothing, and a word has one response
whose code is at most 7 (30_encoding.md R63). -/
theorem everyStepIsSafe : Obligations.EveryStepIsSafe := by
  unfold Obligations.EveryStepIsSafe
  intro s
  have hreset {e : HostEvent} {rest : List HostEvent} (he : e = .reset ∨ ∃ w, e = .resetDuring w)
      (hin : s.hostIn = e :: rest) : SafeStep s := .of_no_response (step_of_reset he hin) rfl
  match hin : s.hostIn with
  | [] => exact .of_no_response (idleStepHoldsState s hin) rfl
  | .command w :: rest =>
    obtain ⟨t, r, hstep, -, hout, hcode, -⟩ := oneResponsePerCommand s w rest hin
    exact ⟨t, hstep, [r], hout, le_rfl, List.forall_mem_singleton.mpr hcode⟩
  | .reset :: rest => exact hreset (.inl rfl) hin
  | .resetDuring w :: rest => exact hreset (.inr ⟨w, rfl⟩) hin

/-- Settles O10: `applyReset` on the state with the event taken reads only the parameters and the two queues. -/
theorem resetSendsNoResponse : Obligations.ResetSendsNoResponse := by
  unfold Obligations.ResetSendsNoResponse
  intro s e rest he hin
  rw [step_of_reset he hin, State.popHost_of_hostIn hin]
  rfl

end Sys2Proof.Machine
